-- ==== Sys2Proof/Word.lean ====
section
/-! DEFINITION. Word.lean: the plain data HJCORE's registers are made of (spec/00_scope.md R9, R15). -/

namespace Sys2Proof

/-- A byte; bit 0 is its least significant bit (R15). -/
abbrev Byte := BitVec 8

/-- A byte string; `++` is concatenation, the left operand first (R15). -/
abbrev Bytes := List Byte

/-- The 32 bytes of a seed, byte 0 first (R21). -/
abbrev Seed := Vector Byte 32

/-- A ring (grid row): 0 is the innermost, 3 the outermost (R19, R22). -/
abbrev Ring := Fin 4

/-- A sector (grid column); arithmetic on it is modulo 64, as the column axis is circular (R19, R22). -/
abbrev Sector := Fin 64

/-- A cell of the grid: its row and its column. -/
abbrev Cell := Ring × Sector

/-- A 4 x 64 matrix of bits, one bit a cell (R22). The bits are laid out as the port `grid_out` shows
them (R32): cell `(r, c)` is bit `255 - (64 r + c)`. -/
structure Grid where
  bits : BitVec 256
deriving DecidableEq, Repr, Inhabited

/-- What the fragment store holds: for each of the ids 0..9, absent or a byte string (20_memory.md R50, R51). -/
abbrev FragStore := Vector (Option Bytes) 10

end Sys2Proof
end

