-- ==== Sys2Proof/Config.lean ====
section
/-! DEFINITION. Config.lean: what an instance of HJCORE fixes at build time (spec/00_scope.md R10) and the
free values, which stand for what the spec leaves unspecified. -/

namespace Sys2Proof

/-- The eight open parameters of R10: seven tokens, each a byte string of any length, and the capacity of
the document buffer. R10 bounds the capacity by `1 <= DOC_MAX <= 2^32 - 1`; it is stored less one, so that
every value of the field is a legal capacity. -/
structure Config where
  /-- `TOK_ROT_A`: opening of the rotation wrapper, before the angle text. -/
  tokRotA : Bytes
  /-- `TOK_ROT_B`: rest of the wrapper opening, after the angle text. -/
  tokRotB : Bytes
  /-- `TOK_ROT_C`: closing of the rotation wrapper. -/
  tokRotC : Bytes
  /-- `TOK_BLACK`: colour token for a grid bit `0`. -/
  tokBlack : Bytes
  /-- `TOK_WHITE`: colour token for a grid bit `1`. -/
  tokWhite : Bytes
  /-- `TOK_SHAPE_CLOSE`: closing token after a colour token. -/
  tokShapeClose : Bytes
  /-- `TOK_LINE_CLOSE`: closing token after a hex text line. -/
  tokLineClose : Bytes
  /-- `DOC_MAX - 1`. -/
  docMaxLessOne : Fin 4294967295
deriving DecidableEq, Repr, Inhabited

/-- `DOC_MAX`, the capacity of the document buffer in bytes (R10). -/
def Config.docMax (c : Config) : Nat := c.docMaxLessOne.val + 1

/-- The parameters this instance was built with. DESIGN CHOICE (log 6), safe: no body, so nothing can be
proved of a particular token or capacity; statements quantify over `State.cfg`. -/
opaque Config.build : Config

/-! Free values (logs 2 and 3), safe: what a data register holds after an `rst` in a run
(70_reset_and_hazards.md R190) and the bytes of `CROWN_TXT` past its length (10_state.md R30). Each is
applied to the number of the draw; none has a body. -/

opaque Config.freeSeed : Nat → Seed
opaque Config.freeGrid : Nat → Grid
opaque Config.freeEvenScore : Nat → Byte
opaque Config.freeEvenLabel : Nat → Vector Byte 3
opaque Config.freePassages : Nat → Byte
opaque Config.freeCrownRank : Nat → Byte
opaque Config.freeCrownQty : Nat → Byte
opaque Config.freeCrownTxt : Nat → Vector Byte 5
opaque Config.freeCrownTxtLen : Nat → Byte

end Sys2Proof
end

