-- ==== Sys2Proof/Machine/State.lean ====
section
/-! DEFINITION. Machine/State.lean: the state of HJCORE and of the agents around it, as plain data
(spec/10_state.md, 00_scope.md R12, R13). INVENTORY.md lists every field with its rule and reset value. -/

namespace Sys2Proof.Machine

/-- The document space: (offset, byte) pairs at strictly rising offsets. An offset that is not listed has
no value (`Memory.unlisted` of Machine/Ops.lean; log 5). -/
abbrev Memory := List Host.Cell

/-- What may go wrong around the block while a command executes, and the reset that aborts a command. -/
inductive Disturbance where
  /-- The host asserts `rst` while the command executes (70_reset_and_hazards.md R190). -/
  | rst
  /-- The host moves `seed_in` to `v` before the command is complete (R197). -/
  | seedMoves (v : BitVec 256)
  /-- The fragment store changes to `F` while the command executes (R199). -/
  | storeChanges (F : FragStore)
  /-- The fragment store answers no request of this command (R204, 93_implementation_defined.md U13). -/
  | storeSilent
deriving DecidableEq, Repr

/-- One action of the host, or of the store between commands (70_reset_and_hazards.md R196, R199, R201;
the directives of 30_encoding.md R76). -/
inductive HostAction where
  /-- Offer the command word `w`; the inputs are held until it is complete (R72, R197, R199). -/
  | command (w : Byte)
  /-- Drive `seed_in` to `v` (directive `.seed`). -/
  | setSeedIn (v : BitVec 256)
  /-- Fragment `id` becomes `content`: bytes (directive `.frag`) or absent (directive `.nofrag`). -/
  | setFragment (id : Fin 10) (content : Option Bytes)
  /-- Drive `doc_addr` to `a`. -/
  | setDocAddr (a : BitVec 32)
  /-- Assert `rst` between commands or while halted (directive `.reset`, R190). -/
  | assertReset
  /-- Offer the command word `w`; the disturbance happens while it executes. -/
  | disturbed (w : Byte) (d : Disturbance)
deriving DecidableEq, Repr

/-- The machine. Command words, ports and fragments come from outside; as `step` takes State alone, State
holds them beside the block's own registers (R13; logs 6 to 8). -/
structure State where
  /-- `SEED[0..31]` (R21). -/
  seed : Seed
  /-- `GRID[0..3][0..63]` (R22). -/
  grid : Grid
  /-- `EVEN_SCORE` (R28). -/
  evenScore : Byte
  /-- `EVEN_LABEL[0..2]` (R28). -/
  evenLabel : Vector Byte 3
  /-- `PASSAGES` (R29). -/
  passages : Byte
  /-- `CROWN_RANK` (R30). -/
  crownRank : Byte
  /-- `CROWN_QTY` (R30). -/
  crownQty : Byte
  /-- `CROWN_TXT[0..4]` (R30). -/
  crownTxt : Vector Byte 5
  /-- `CROWN_TXT_LEN` (R30). -/
  crownTxtLen : Byte
  /-- `DOC` (R31, 20_memory.md R56). -/
  doc : Memory
  /-- `DOC_LEN` (R31). -/
  docLen : BitVec 32
  /-- `SEED_V` (R24). -/
  seedV : Bool
  /-- `GRID_V` (R24). -/
  gridV : Bool
  /-- `EVEN_V` (R24). -/
  evenV : Bool
  /-- `PASS_V` (R24). -/
  passV : Bool
  /-- `CROWN_V` (R24). -/
  crownV : Bool
  /-- `DOC_V` (R24). -/
  docV : Bool
  /-- `FAULT`, sticky (R25). -/
  fault : Bool
  /-- `ERR_CODE` (R27). -/
  errCode : BitVec 4
  /-- `ERR_INFO` (R27). -/
  errInfo : BitVec 4
  /-- `ERR_CMD` (R27). -/
  errCmd : Byte
  /-- The instance's tokens and `DOC_MAX` (R10); nothing changes it. -/
  cfg : Config
  /-- The input port `seed_in` (R32, R58). -/
  seedIn : BitVec 256
  /-- What the fragment store holds (R11, R50). -/
  frags : FragStore
  /-- The input port `doc_addr` (R32). -/
  docAddr : BitVec 32
  /-- The host's actions still to come, oldest first (R201). -/
  host : List HostAction
  /-- The model's own: how many free values have been drawn (log 2). -/
  draws : Nat
deriving DecidableEq, Repr

/-- Why the machine stops with a fault. The five fault codes of 60_exceptions.md R171 are NOT here: they are
taken by the block (R172) and answer a next state. -/
inductive Fault where
  /-- Raised by `hostAct` when a command asks a store that never answers (93 U13: `stuck`, "the command never
  completes"). Safe: the model stops. -/
  | storeSilent
deriving DecidableEq, Repr

/-- Why the model gives no next state. -/
inductive Refusal where
  /-- Raised by an arm of `exec` that has no meaning yet; no arm raises it. Safe: the model stops. -/
  | notModelled (mnemonic : String)
  /-- Raised by `hostAct` when `seed_in` moves during LDSEED or QUERY (93 U6: `refuse`; R197 "gives the step no
  meaning otherwise"). Safe: the model stops. -/
  | seedInMoved
  /-- Raised by `hostAct` when the store changes during ASM or QUERY (93 U7: `refuse`). Safe: the model stops. -/
  | storeChanged
deriving DecidableEq, Repr

/-- The machine right after reset (R36, R190): every flag, error register and `DOC_LEN` is 0. The data
registers, whose contents R36 leaves unspecified, are 0: DESIGN CHOICE (log 1), unsafe. `DOC` lists nothing
(log 5), the parameters are the opaque `Config.build` (log 6), the ports are 0, the store is empty and
no host action is pending (log 7). -/
def State.reset : State where
  seed := Vector.replicate 32 0
  grid := { bits := 0 }
  evenScore := 0
  evenLabel := Vector.replicate 3 0
  passages := 0
  crownRank := 0
  crownQty := 0
  crownTxt := Vector.replicate 5 0
  crownTxtLen := 0
  doc := []
  docLen := 0
  seedV := false
  gridV := false
  evenV := false
  passV := false
  crownV := false
  docV := false
  fault := false
  errCode := 0
  errInfo := 0
  errCmd := 0
  cfg := Config.build
  seedIn := 0
  frags := Vector.replicate 10 none
  docAddr := 0
  host := []
  draws := 0

end Sys2Proof.Machine
end

