-- ==== Sys2Proof/Syntax.lean ====
section
/-! DEFINITION. Syntax.lean: the eight commands (spec/30_encoding.md R71). No command has an operand (R73). -/

namespace Sys2Proof

/-- One constructor per row of spec/opcode_table.json. -/
inductive Instr where
  /-- `0x00`: do nothing (R160). -/
  | nop
  /-- `0x01`: load the seed from `seed_in` (R90). -/
  | ldseed
  /-- `0x02`: seed to grid (R92). -/
  | decode
  /-- `0x03`: evenness score and label (R100). -/
  | even
  /-- `0x04`: count the passages (R110). -/
  | pass
  /-- `0x05`: longest circular palindrome (R120). -/
  | crown
  /-- `0x06`: assemble the document (R130). -/
  | asm
  /-- `0x07`: the whole pipeline (R161). -/
  | query
deriving DecidableEq, Repr

end Sys2Proof
end

