-- ==== Sys2Proof/WellFormed.lean ====
section
/-! DEFINITION. WellFormed.lean: the checks the spec puts on what enters the machine. A command has no operand
(spec/30_encoding.md R73), so every `Instr` is well formed; command words, fragment ids and fragment lengths
are checked. -/

namespace Sys2Proof

/-- Every command is well formed: none has a field that could be wrong (R73). -/
def Instr.wf : Instr → Bool
  | .nop => true
  | .ldseed => true
  | .decode => true
  | .even => true
  | .pass => true
  | .crown => true
  | .asm => true
  | .query => true

/-- The words that are commands; `0x08..0xFF` are illegal (R71, R74). -/
def wordOk (w : Byte) : Bool := w.toNat < 8

/-- The ids that name a fragment; `10..15` name none (20_memory.md R51). -/
def fragIdOk (id : Nat) : Bool := id < 10

/-- A fragment's length is below `2^32` (20_memory.md R52). -/
def fragmentOk (content : Option Bytes) : Bool :=
  match content with
  | none => true
  | some b => b.length < 2 ^ 32

/-- Every fragment of the store has a legal length (R52). -/
def FragStore.ok (F : FragStore) : Bool := F.toList.all fragmentOk

/-- A host action the host's duties allow: "any command word" may be offered, legal or illegal, `rst` may come at any
time (70_reset_and_hazards.md R196), a fragment keeps a legal length (20_memory.md R52), and nothing else disturbs a
command (R197, R199, R204). -/
def Machine.HostAction.wf : Machine.HostAction → Bool
  | .command _ => true
  | .setSeedIn _ => true
  | .setFragment _ content => fragmentOk content
  | .setDocAddr _ => true
  | .assertReset => true
  | .disturbed _ .rst => true
  | .disturbed _ (.seedMoves _) => false
  | .disturbed _ (.storeChanges _) => false
  | .disturbed _ .storeSilent => false

end Sys2Proof
end

