-- ==== Sys2Proof/Decode.lean ====
section
/-! DEFINITION. Decode.lean: command words to commands and back (spec/30_encoding.md R70, R71, R74). -/

namespace Sys2Proof

/-- One row of spec/opcode_table.json: a word `w` is this row's command when `w AND mask = pattern`. -/
structure OpcodeRow where
  pattern : Byte
  mask : Byte
  instr : Instr
deriving DecidableEq, Repr

/-- Why a decoder refuses. -/
inductive DecodeError where
  /-- The word is not in the table of R71 (R74). -/
  | illegalCmd (w : Byte)
  /-- There is no byte to decode. -/
  | empty
deriving DecidableEq, Repr

/-- The opcode table of R71; the mask is `0xFF` in every row (R70). -/
def opcodeTable : List OpcodeRow :=
  [ { pattern := 0x00, mask := 0xFF, instr := .nop },
    { pattern := 0x01, mask := 0xFF, instr := .ldseed },
    { pattern := 0x02, mask := 0xFF, instr := .decode },
    { pattern := 0x03, mask := 0xFF, instr := .even },
    { pattern := 0x04, mask := 0xFF, instr := .pass },
    { pattern := 0x05, mask := 0xFF, instr := .crown },
    { pattern := 0x06, mask := 0xFF, instr := .asm },
    { pattern := 0x07, mask := 0xFF, instr := .query } ]

/-- The command a word stands for; every word outside the table is illegal (R70, R71, R74). -/
def decodeWord (w : Byte) : Except DecodeError Instr :=
  match opcodeTable.find? (fun row => w &&& row.mask == row.pattern) with
  | some row => .ok row.instr
  | none => .error (.illegalCmd w)

/-- The command at the head of a byte sequence, and the rest: a command is always one byte (R75). -/
def decodeBytes : Bytes → Except DecodeError (Instr × Bytes)
  | [] => .error .empty
  | b :: rest =>
    match decodeWord b with
    | .ok i => .ok (i, rest)
    | .error e => .error e

/-- The commands of a byte sequence, one byte each (R76), or the first word that is none. -/
def decodeProgram : Bytes → Except DecodeError (List Instr)
  | [] => .ok []
  | b :: rest =>
    match decodeWord b, decodeProgram rest with
    | .ok i, .ok is => .ok (i :: is)
    | .error e, _ => .error e
    | .ok _, .error e => .error e

/-- The word of a command (R71). -/
def encode : Instr → Byte
  | .nop => 0x00
  | .ldseed => 0x01
  | .decode => 0x02
  | .even => 0x03
  | .pass => 0x04
  | .crown => 0x05
  | .asm => 0x06
  | .query => 0x07

/-- "A listing's encoding is the sequence of its command bytes in order" (R76). -/
def encodeProgram (is : List Instr) : Bytes := is.map encode

/-- The byte the table's `nbits` bits of `w` make, bits above `nbits` zero (a command is one byte, R75). -/
def tableByte (nbits w : Nat) : Byte := BitVec.ofNat 8 (w % 2 ^ nbits)

/-- What the decoder reads from a row's word, numbered as spec/opcode_table.json numbers it. No command is
longer than one byte (R75), so more than eight bits are no command. -/
def decodeTableWord (nbits w : Nat) : Option Instr :=
  if nbits ≤ 8 then
    match decodeWord (tableByte nbits w) with
    | .ok i => some i
    | .error _ => none
  else none

end Sys2Proof
end

