-- ==== Sys2Proof/Machine/Operands.lean ====
section
/-! DEFINITION. Machine/Operands.lean: how a command reaches the bytes of the seed, the cells of the grid, the
port `seed_in` and the fragments (spec/10_state.md R21, R22; 20_memory.md R51, R52, R58, R59). No command
word carries an operand (30_encoding.md R73). -/

namespace Sys2Proof

/-- `GRID[r][c]`; `true` is a wall, `false` is open (R22). -/
def Grid.cell (g : Grid) (r : Ring) (c : Sector) : Bool := g.bits.getMsbD (64 * r.val + c.val)

/-- The grid whose cell `(r, c)` is `f r c`. -/
def Grid.ofFn (f : Ring → Sector → Bool) : Grid where
  bits := BitVec.ofFnBE fun k : Fin 256 =>
    f ⟨k.val / 64, by omega⟩ ⟨k.val % 64, Nat.mod_lt _ (by decide)⟩

/-- An open cell, "open/passable": its bit is `0` (R22, 42_passages.md R111). -/
def Grid.isOpen (g : Grid) (x : Cell) : Bool := !g.cell x.1 x.2

/-- A set of cells, kept as marks in a grid: the set `g` with `x` added. -/
def Grid.mark (g : Grid) (x : Cell) : Grid where
  bits := g.bits ||| (BitVec.twoPow 256 (255 - (64 * x.1.val + x.2.val)))

/-- The set of cells `g` holds `x`. -/
def Grid.marked (g : Grid) (x : Cell) : Bool := g.cell x.1 x.2

/-- The union of two sets of cells. -/
def Grid.union (g h : Grid) : Grid where
  bits := g.bits ||| h.bits

/-- The empty set of cells; as a grid, all cells open. -/
def Grid.blank : Grid where
  bits := 0

/-- Sector `n mod 64`: "index arithmetic mod 64" (R22). -/
def sectorOf (n : Nat) : Sector := ⟨n % 64, Nat.mod_lt _ (by decide)⟩

/-- Byte `i` of the seed on the port: `seed_in[255 - 8i : 248 - 8i]` (R58). -/
def seedByte (v : BitVec 256) (i : Fin 32) : Byte := v.extractLsb' (248 - 8 * i.val) 8

/-- The 32 bytes of a value of `seed_in` (R58). -/
def seedOfPort (v : BitVec 256) : Seed := Vector.ofFn (seedByte v)

/-- `FragPresent(id)` (R52). -/
def FragStore.present (F : FragStore) (id : Fin 10) : Bool := (F.get id).isSome

/-- `FragBytes(id)`, "defined only when present" (R52). -/
def FragStore.bytes? (F : FragStore) (id : Fin 10) : Option Bytes := F.get id

/-- The bytes fragment `id` adds to a document; ASM asks only once all ten are present (44_assemble.md R130). R52 defines
`FragBytes` only for a present fragment: that an absent one counts as the empty string here is a DESIGN CHOICE
(log 17), and no command reaches it. -/
def FragStore.bytes (F : FragStore) (id : Fin 10) : Bytes := (F.bytes? id).getD []

/-- `FragLen(id)` of a present fragment (R52). The length `0` of an absent one is a DESIGN CHOICE (log 17), and no command
reaches it. -/
def FragStore.len (F : FragStore) (id : Fin 10) : Nat := (F.bytes id).length

/-- `MemRead(FRAG[id], k, 1)`: byte `k` of a present fragment, for `k` below its length (R52); no value otherwise. -/
def FragStore.read (F : FragStore) (id : Fin 10) (k : Nat) : Option Byte :=
  match F.bytes? id with
  | none => none
  | some b => b[k]?

/-- The first absent fragment in id order `0` to `9` (44_assemble.md R140). -/
def FragStore.firstMissing (F : FragStore) : Option (Fin 10) :=
  (List.finRange 10).find? fun id => !F.present id

/-- Fragment ids by symbol (R51). -/
def fragHead : Fin 10 := 0
def fragTail : Fin 10 := 1
/-- `RING_r` has id `2 + r`. -/
def fragRing (r : Ring) : Fin 10 := ⟨2 + r.val, by omega⟩
/-- `LINE_j` has id `6 + j`. -/
def fragLine (j : Fin 4) : Fin 10 := ⟨6 + j.val, by omega⟩

end Sys2Proof
end

