-- ==== Sys2Proof/Machine/Flags.lean ====
section
/-! DEFINITION. Machine/Flags.lean: the valid flags, and the views `STATUS` and `ERR` of them and of the error
registers (spec/10_state.md R24 to R27). There is no arithmetic condition code (R25). -/

namespace Sys2Proof.Machine

/-- The five flags of registers derived from the seed become `0`, and with `DOC_V` the length of the
document (R24, R31, 40_seed_and_decode.md R90). -/
def State.clearDerived (s : State) : State :=
  { s with gridV := false, evenV := false, passV := false, crownV := false, docV := false, docLen := 0 }

/-- ASM withdraws the document when it faults: `DOC_V <- 0 ; DOC_LEN <- 0` (44_assemble.md R130). -/
def State.withdrawDoc (s : State) : State := { s with docV := false, docLen := 0 }

/-- `STATUS`: bit 0 `SEED_V`, 1 `GRID_V`, 2 `EVEN_V`, 3 `PASS_V`, 4 `CROWN_V`, 5 `DOC_V`, 6 reads `0`,
7 `FAULT` (R26). -/
def State.status (s : State) : Byte :=
  BitVec.ofBool s.fault ++ (0 : BitVec 1) ++ BitVec.ofBool s.docV ++ BitVec.ofBool s.crownV ++
    BitVec.ofBool s.passV ++ BitVec.ofBool s.evenV ++ BitVec.ofBool s.gridV ++ BitVec.ofBool s.seedV

/-- `ERR[7:4] = ERR_INFO`, `ERR[3:0] = ERR_CODE` (R27). -/
def State.err (s : State) : Byte := s.errInfo ++ s.errCode

end Sys2Proof.Machine
end

