-- ==== Sys2Proof/Machine/Ops.lean ====
section
/-! DEFINITION. Machine/Ops.lean: the operations the commands share: the document memory, the fault entry and
reset, the only way out of the halted state (spec/20_memory.md R56; 60_exceptions.md R171 to R177;
70_reset_and_hazards.md R190). -/

namespace Sys2Proof.Machine

/-! ## The document memory -/

/-- What an offset that is not listed reads as: it has no value (log 5; 10_state.md R36 "no value at all"). -/
def Memory.unlisted (_k : Nat) : Option Byte := none

/-- Byte `k` of the memory. -/
def Memory.read (m : Memory) (k : Nat) : Option Byte :=
  match m with
  | [] => Memory.unlisted k
  | (a, b) :: rest => if a = k then some b else Memory.read rest k

/-- The canonical form: offsets strictly rise. -/
def Memory.wf : Memory → Bool
  | [] => true
  | [_] => true
  | x :: y :: rest => decide (x.1 < y.1) && Memory.wf (y :: rest)

/-- `MemWrite(DOC, k, 1, v)` (00_scope.md R16). -/
def Memory.write (m : Memory) (k : Nat) (v : Byte) : Memory :=
  match m with
  | [] => [(k, v)]
  | (a, b) :: rest =>
    if k < a then (k, v) :: (a, b) :: rest
    else if k = a then (k, v) :: rest
    else (a, b) :: Memory.write rest k v

/-- The cells of a run of bytes from offset `k` on. -/
def Memory.run (k : Nat) : Bytes → Memory
  | [] => []
  | b :: bs => (k, b) :: Memory.run (k + 1) bs

/-- The bytes `bs` written one at a time at offsets `0, 1, 2, ...` with no gaps (R56): the run itself and
whatever is held beyond it (Laws/Memory.lean proves it equal to one `Memory.write` per byte). -/
def Memory.storeFromZero (m : Memory) (bs : Bytes) : Memory :=
  Memory.run 0 bs ++ m.filter fun x => decide (bs.length ≤ x.1)

/-! ## Taking a fault, and the halt -/

/-- The faults a command raises (60_exceptions.md R171). -/
inductive FaultKind where
  /-- The word is not in the opcode table. -/
  | illegalCmd
  /-- `SEED_V = 0`. -/
  | noSeed
  /-- `GRID_V = 0`. -/
  | noGrid
  /-- Fragment `id` is the lowest absent one. -/
  | fragMissing (id : Fin 10)
  /-- `docLength > DOC_MAX`. -/
  | docOverflow
deriving DecidableEq, Repr

/-- `ERR_CODE` of a fault (R171). -/
def faultCode : FaultKind → BitVec 4
  | .illegalCmd => 1
  | .noSeed => 2
  | .noGrid => 3
  | .fragMissing _ => 4
  | .docOverflow => 5

/-- `ERR_INFO` of a fault: the missing id for `FRAG_MISSING`, else `0` (R171). -/
def faultInfo : FaultKind → BitVec 4
  | .illegalCmd => 0
  | .noSeed => 0
  | .noGrid => 0
  | .fragMissing id => BitVec.ofNat 4 id.val
  | .docOverflow => 0

/-- The fault entry, `raise X(info)` while the word `w` executes: "Nothing else is written by the fault
entry"; control goes nowhere and the block is halted (R172). -/
def State.raise (s : State) (w : Byte) (k : FaultKind) : State :=
  { s with fault := true, errCode := faultCode k, errInfo := faultInfo k, errCmd := w }

/-- Reset, the only return from a fault (R177, R190): every flag, error register and `DOC_LEN` to `0`; the
contents of the data registers and of `DOC` become unspecified, so the registers take free values and
`DOC` lists nothing (log 2). The ports, the store, the parameters and the host's list are not the block's. -/
def State.hardReset (s : State) : State :=
  { s with
    seed := Config.freeSeed s.draws
    grid := Config.freeGrid s.draws
    evenScore := Config.freeEvenScore s.draws
    evenLabel := Config.freeEvenLabel s.draws
    passages := Config.freePassages s.draws
    crownRank := Config.freeCrownRank s.draws
    crownQty := Config.freeCrownQty s.draws
    crownTxt := Config.freeCrownTxt s.draws
    crownTxtLen := Config.freeCrownTxtLen s.draws
    doc := []
    docLen := 0
    seedV := false
    gridV := false
    evenV := false
    passV := false
    crownV := false
    docV := false
    fault := false
    errCode := 0
    errInfo := 0
    errCmd := 0
    draws := s.draws + 1 }

/-- "if FAULT = 1 then ignore": the first line of every command (R174). -/
def State.unlessHalted (s : State) (body : State → State) : State := if s.fault then s else body s

/-- "if SEED_V = 0 then raise NO_SEED(0)" in command `w` (R171, R176). -/
def State.needSeed (s : State) (w : Byte) (body : State → State) : State :=
  if s.seedV then body s else s.raise w .noSeed

/-- "if GRID_V = 0 then raise NO_GRID(0)" in command `w` (R171, R176). -/
def State.needGrid (s : State) (w : Byte) (body : State → State) : State :=
  if s.gridV then body s else s.raise w .noGrid

end Sys2Proof.Machine
end

