-- ==== Sys2Proof/Machine/Even.lean ====
section
/-! DEFINITION. Machine/Even.lean: EVEN (spec/41_evenness.md). -/

namespace Sys2Proof

/-- The number of `1` bits of a byte. -/
def popcountByte (b : Byte) : Nat := (List.range 8).countP b.getLsbD

/-- `popcount(S)`: the number of `1` bits among all 256 bits (R101). -/
def popcount (S : Seed) : Nat := (S.toList.map popcountByte).sum

/-- `diff = |ones - 128|` (R101). -/
def evenDiff (ones : Nat) : Nat := ((ones : Int) - 128).natAbs

/-- `score = ((128 - diff) * 10) / 128` (R101). -/
def evenScoreOf (ones : Nat) : Nat := (128 - evenDiff ones) * 10 / 128

/-- `ascii(d)`: the byte `0x30 + d` of a decimal digit (00_scope.md R16). -/
def ascii (d : Nat) : Byte := BitVec.ofNat 8 (0x30 + d)

/-- The label: `"1.0"` if and only if the score is 10, else `"0."` and the digit of the score (R102). -/
def evenLabelOf (score : Nat) : Vector Byte 3 :=
  if score = 10 then #v[0x31, 0x2E, 0x30] else #v[0x30, 0x2E, ascii score]

/-- `evenness(S)` (R101, R102). -/
def evenness (S : Seed) : Nat × Vector Byte 3 :=
  let score := evenScoreOf (popcount S)
  (score, evenLabelOf score)

namespace Machine

/-- The writes of EVEN (R100). -/
def State.writeEven (s : State) : State :=
  { s with
    evenScore := BitVec.ofNat 8 (evenness s.seed).1
    evenLabel := (evenness s.seed).2
    evenV := true }

/-- EVEN (R100). -/
def execEven (s : State) : Host.Outcome State Fault Refusal :=
  .next (s.unlessHalted fun s => s.needSeed (encode .even) State.writeEven)

end Machine

end Sys2Proof
end

