-- ==== Sys2Proof/Machine/Crown.lean ====
section
/-! DEFINITION. Machine/Crown.lean: CROWN (spec/43_crown.md), and the decimal text `dec` (44_assemble.md R136). -/

namespace Sys2Proof

/-- `pal(G, s, L)`: in every row the window of `L` sectors from `s` on, taken around the circle, reads the same
both ways (R121). -/
def pal (g : Grid) (s : Sector) (L : Nat) : Bool :=
  (List.finRange 4).all fun r => (List.range (L / 2)).all fun k =>
    g.cell r (sectorOf (s.val + k)) == g.cell r (sectorOf (s.val + L - 1 - k))

/-- Some start sector has a palindrome of length `L`. -/
def hasPal (g : Grid) (L : Nat) : Bool := (List.finRange 64).any fun s => pal g s L

/-- The rank: the largest `L` in `2..64` with a palindrome of that length, `0` if there is none (R122). The
lengths are tried from 64 down. -/
def crownRankOf (g : Grid) : Nat := (((List.range 63).map (64 - ·)).find? (hasPal g)).getD 0

/-- The number of start sectors whose window of length `rank` is a palindrome, `0` if the rank is `0`
(R122). Starts that are rotations of one another count each on its own (R125; log 11). -/
def crownQtyOf (g : Grid) (rank : Nat) : Nat :=
  if rank = 0 then 0 else (List.finRange 64).countP fun s => pal g s rank

/-- `crown(G) = (rank, qty)` (R122). -/
def crown (g : Grid) : Nat × Nat := (crownRankOf g, crownQtyOf g (crownRankOf g))

/-- The decimal digits of `n`, most significant first, by repeated division by 10; `fuel > n` is enough. -/
def decDigits : Nat → Nat → Bytes
  | 0, _ => []
  | fuel + 1, n => if n < 10 then [ascii n] else decDigits fuel (n / 10) ++ [ascii (n % 10)]

/-- `dec(n)`: natural decimal text, no leading zero, `"0"` for `0` (44_assemble.md R136). -/
def dec (n : Nat) : Bytes := decDigits (n + 1) n

/-- The Crown string: `"none"` when the rank is `0`, else `"<rank>:<qty>"` (R124). -/
def crownText (rank qty : Nat) : Bytes :=
  if rank = 0 then [0x6E, 0x6F, 0x6E, 0x65] else dec rank ++ [0x3A] ++ dec qty

/-- The five bytes of `CROWN_TXT` after `txt` is written from index 0 on; the bytes past its length come from
`rest` (R30, R120). -/
def crownTxtOf (txt : Bytes) (rest : Vector Byte 5) : Vector Byte 5 :=
  Vector.ofFn fun k => (txt[k.val]?).getD (rest.get k)

namespace Machine

/-- The writes of CROWN (R120). The bytes of `CROWN_TXT` past its length "are unspecified" (10_state.md R30):
free values (log 3). -/
def State.writeCrown (s : State) : State :=
  let rq := crown s.grid
  let txt := crownText rq.1 rq.2
  { s with
    crownRank := BitVec.ofNat 8 rq.1
    crownQty := BitVec.ofNat 8 rq.2
    crownTxt := crownTxtOf txt (Config.freeCrownTxt s.draws)
    crownTxtLen := BitVec.ofNat 8 txt.length
    crownV := true
    draws := s.draws + 1 }

/-- CROWN (R120). -/
def execCrown (s : State) : Host.Outcome State Fault Refusal :=
  .next (s.unlessHalted fun s => s.needGrid (encode .crown) State.writeCrown)

end Machine

end Sys2Proof
end

