-- ==== Sys2Proof/Machine/Assemble.lean ====
section
/-! DEFINITION. Machine/Assemble.lean: ASM, the document and its text formats (spec/44_assemble.md). -/

namespace Sys2Proof

/-- Trailing `"0"` bytes removed (R137). -/
def trimZeros (t : Bytes) : Bytes := (t.reverse.dropWhile (· == 0x30)).reverse

/-- `angleText(s)`: `s * 5625` millidegrees as an exact decimal in degrees, trailing zeros trimmed (R137). -/
def angleText (s : Sector) : Bytes :=
  let m := s.val * 5625
  let ip := m / 1000
  let fr := m % 1000
  if fr = 0 then dec ip
  else dec ip ++ [0x2E] ++ trimZeros [ascii (fr / 100), ascii (fr / 10 % 10), ascii (fr % 10)]

/-- `hexchar(n)` of a nibble, lower case (R139). -/
def hexchar (n : Nat) : Byte := if n < 10 then BitVec.ofNat 8 (0x30 + n) else BitVec.ofNat 8 (0x61 + n - 10)

/-- A byte as two hex digits, the high nibble first (R139). -/
def hexByte (b : Byte) : Bytes := [hexchar (b.toNat / 16), hexchar (b.toNat % 16)]

/-- `hex16(S, j)`: seed bytes `8j` to `8j + 7` in hex (R139). -/
def hex16 (S : Seed) (j : Fin 4) : Bytes :=
  (List.finRange 8).flatMap fun b => hexByte (S.get ⟨8 * j.val + b.val, by omega⟩)

/-- The colour token of a grid bit: `TOK_BLACK` for `0`, `TOK_WHITE` for `1` (R135). -/
def colourToken (cfg : Config) (bit : Bool) : Bytes := if bit then cfg.tokWhite else cfg.tokBlack

/-- `shape(r, s)` (R132). -/
def docShape (cfg : Config) (G : Grid) (F : FragStore) (s : Sector) (r : Ring) : Bytes :=
  F.bytes (fragRing r) ++ colourToken cfg (G.cell r s) ++ cfg.tokShapeClose

/-- `sector(s)`: the rotation wrapper around the four shapes (R132, R134). -/
def docSector (cfg : Config) (G : Grid) (F : FragStore) (s : Sector) : Bytes :=
  cfg.tokRotA ++ angleText s ++ cfg.tokRotB ++ (List.finRange 4).flatMap (docShape cfg G F s) ++ cfg.tokRotC

/-- `line(j)` (R132). -/
def docLine (cfg : Config) (S : Seed) (F : FragStore) (j : Fin 4) : Bytes :=
  F.bytes (fragLine j) ++ hex16 S j ++ cfg.tokLineClose

/-- `assemble(S, G, F)` for a store with all ten fragments present (R131, R132; for another store log 17). The traits do
not enter it (R133). -/
def assemble (cfg : Config) (S : Seed) (G : Grid) (F : FragStore) : Bytes :=
  F.bytes fragHead ++ (List.finRange 64).flatMap (docSector cfg G F) ++
    (List.finRange 4).flatMap (docLine cfg S F) ++ F.bytes fragTail

/-- `docLength(S, F)`, on natural numbers without wrap-around, for a store with all ten fragments present (R141, R142;
for another store log 17). -/
def docLength (cfg : Config) (S : Seed) (F : FragStore) : Nat :=
  F.len fragHead + F.len fragTail
    + 64 * (cfg.tokRotA.length + cfg.tokRotB.length + cfg.tokRotC.length)
    + 364
    + 64 * (F.len (fragRing 0) + F.len (fragRing 1) + F.len (fragRing 2) + F.len (fragRing 3))
    + 256 * cfg.tokShapeClose.length
    + (256 - popcount S) * cfg.tokBlack.length + popcount S * cfg.tokWhite.length
    + F.len (fragLine 0) + F.len (fragLine 1) + F.len (fragLine 2) + F.len (fragLine 3)
    + 4 * 16
    + 4 * cfg.tokLineClose.length

namespace Machine

/-- The length ASM computes before it writes (R130). -/
def State.docLength (s : State) : Nat := Sys2Proof.docLength s.cfg s.seed s.frags

/-- The document ASM writes (R130). -/
def State.document (s : State) : Bytes := assemble s.cfg s.seed s.grid s.frags

/-- "for id in 0, 1, ..., 9: if FragPresent(id) = 0" the document is withdrawn and `FRAG_MISSING(id)` raised,
in command `w` (R130, R140). -/
def State.needFragments (s : State) (w : Byte) (body : State → State) : State :=
  match s.frags.firstMissing with
  | some id => s.withdrawDoc.raise w (.fragMissing id)
  | none => body s

/-- "if n > DOC_MAX" the document is withdrawn and `DOC_OVERFLOW` raised, in command `w` (R130, R141). -/
def State.needRoom (s : State) (w : Byte) (body : State → State) : State :=
  if s.docLength > s.cfg.docMax then s.withdrawDoc.raise w .docOverflow else body s

/-- The document bytes at offsets `0` to `n - 1`, then `DOC_LEN` and `DOC_V` (R130). `len(d) = n` whenever
`GRID = decode(SEED)` (R142); in a state no run reaches, where it is not, the first `n` bytes (log 12). -/
def State.storeDocument (s : State) : State :=
  { s with
    doc := s.doc.storeFromZero (s.document.take s.docLength)
    docLen := BitVec.ofNat 32 s.docLength
    docV := true }

/-- The body of ASM, in command `w`: the tests in the order of 60_exceptions.md R176, all before the first
document byte (R130). -/
def State.assembleDoc (s : State) (w : Byte) : State :=
  s.needSeed w fun s => s.needGrid w fun s => s.needFragments w fun s => s.needRoom w State.storeDocument

/-- ASM (R130). -/
def execAsm (s : State) : Host.Outcome State Fault Refusal :=
  .next (s.unlessHalted fun s => s.assembleDoc (encode .asm))

end Machine

end Sys2Proof
end

