-- ==== Sys2Proof/Machine/Pass.lean ====
section
/-! DEFINITION. Machine/Pass.lean: PASS (spec/42_passages.md). The count is the reference algorithm of R113;
Safety.lean holds the graph of R111 and the number of R112, which an obligation equates with it. -/

namespace Sys2Proof

/-- The radial neighbours of a cell: row - 1 and row + 1 in the same column; the row axis is not circular
(R111). -/
def radialNeighbours (x : Cell) : List Cell :=
  ((List.finRange 4).filter fun r => r.val + 1 == x.1.val || r.val == x.1.val + 1).map fun r => (r, x.2)

/-- The circumferential neighbours of a cell: column + 1 and column - 1 modulo 64, same row (R111). -/
def ringNeighbours (x : Cell) : List Cell :=
  [(x.1, sectorOf (x.2.val + 1)), (x.1, sectorOf (x.2.val + 63))]

/-- The cells an edge may lead to (R111, R113). -/
def neighbours (x : Cell) : List Cell := radialNeighbours x ++ ringNeighbours x

/-- What one search holds: the cells visited this round, the work queue, and whether row 3 was reached
(R113). -/
structure Search where
  visited : Grid
  queue : List Cell
  reached : Bool
deriving DecidableEq, Repr

/-- A neighbour that is open and not yet visited this round is visited and queued (R113). -/
def Search.meet (g : Grid) (t : Search) (y : Cell) : Search :=
  if g.isOpen y && !t.visited.marked y then
    { t with visited := t.visited.mark y, queue := t.queue ++ [y] }
  else t

/-- One cell `x` is taken from the queue: is it in row 3, and which neighbours does it add (R113). -/
def Search.take (g : Grid) (t : Search) (x : Cell) (rest : List Cell) : Search :=
  (neighbours x).foldl (Search.meet g)
    { visited := t.visited, queue := rest, reached := t.reached || x.1 == 3 }

/-- `while queue not empty`, at most `fuel` turns (R113). -/
def Search.loop (g : Grid) : Nat → Search → Search
  | 0, t => t
  | fuel + 1, t =>
    match t.queue with
    | [] => t
    | x :: rest => Search.loop g fuel (t.take g x rest)

/-- The search from one entry cell. A cell enters the queue at most once, so 256 turns empty it ("work queues
... are bounded by 256 cells", 10_state.md R40). -/
def searchFrom (g : Grid) (entry : Cell) : Search :=
  Search.loop g 256 { visited := Grid.blank.mark entry, queue := [entry], reached := false }

/-- The claimed cells and the count so far (R113). -/
structure Claims where
  claimed : Grid
  count : Nat
deriving DecidableEq, Repr

/-- One entry sector of row 0: searched when open and not claimed; its region is claimed and counted when row
3 was reached, else discarded (R113). -/
def Claims.enter (g : Grid) (t : Claims) (c : Sector) : Claims :=
  if g.isOpen (0, c) && !t.claimed.marked (0, c) then
    let found := searchFrom g (0, c)
    if found.reached then { claimed := t.claimed.union found.visited, count := t.count + 1 } else t
  else t

/-- `countPassages(G)`: the entry sectors of row 0 in increasing column order (R112, R113). -/
def countPassages (g : Grid) : Nat :=
  ((List.finRange 64).foldl (Claims.enter g) { claimed := Grid.blank, count := 0 }).count

namespace Machine

/-- The writes of PASS (R110). -/
def State.writePassages (s : State) : State :=
  { s with passages := BitVec.ofNat 8 (countPassages s.grid), passV := true }

/-- PASS (R110); it tests `GRID_V` and not `SEED_V`. -/
def execPass (s : State) : Host.Outcome State Fault Refusal :=
  .next (s.unlessHalted fun s => s.needGrid (encode .pass) State.writePassages)

end Machine

end Sys2Proof
end

