-- ==== Sys2Proof/Machine/Seed.lean ====
section
/-! DEFINITION. Machine/Seed.lean: LDSEED and DECODE (spec/40_seed_and_decode.md). -/

namespace Sys2Proof

/-- `decode(S)`: byte `i` supplies columns `2i` (high nibble) and `2i + 1` (low nibble), the most significant
bit of a nibble to row 0 (R93). -/
def decodeGrid (S : Seed) : Grid :=
  Grid.ofFn fun r c =>
    let b := S.get ⟨c.val / 2, by omega⟩
    if c.val % 2 = 0 then b.getLsbD (7 - r.val) else b.getLsbD (3 - r.val)

/-- Byte `i` of `encode(G)` (10_state.md R42). -/
def encodeGridByte (G : Grid) (i : Fin 32) : Byte :=
  BitVec.ofNat 8 ((List.finRange 4).map fun r =>
    (G.cell r ⟨2 * i.val, by omega⟩).toNat * 2 ^ (7 - r.val) +
      (G.cell r ⟨2 * i.val + 1, by omega⟩).toNat * 2 ^ (3 - r.val)).sum

/-- `encode(G)`, the inverse of `decode`; no command computes it (10_state.md R42). -/
def encodeGrid (G : Grid) : Seed := Vector.ofFn (encodeGridByte G)

namespace Machine

/-- The body of LDSEED (R90). -/
def State.loadSeed (s : State) : State :=
  { s.clearDerived with seed := seedOfPort s.seedIn, seedV := true }

/-- The writes of DECODE (R92). -/
def State.writeGrid (s : State) : State := { s with grid := decodeGrid s.seed, gridV := true }

/-- LDSEED (R90). -/
def execLdseed (s : State) : Host.Outcome State Fault Refusal :=
  .next (s.unlessHalted State.loadSeed)

/-- DECODE (R92). -/
def execDecode (s : State) : Host.Outcome State Fault Refusal :=
  .next (s.unlessHalted fun s => s.needSeed (encode .decode) State.writeGrid)

end Machine

end Sys2Proof
end

