-- ==== Sys2Proof/Machine/Control.lean ====
section
/-! DEFINITION. Machine/Control.lean: NOP and QUERY (spec/45_query_and_control.md). -/

namespace Sys2Proof.Machine

/-- NOP: "no read, no write" (R160). -/
def execNop (s : State) : Host.Outcome State Fault Refusal :=
  .next (s.unlessHalted fun s => s)

/-- The six command bodies of QUERY in order. The LDSEED and DECODE steps set `SEED_V` and `GRID_V`, so no test
for them stands before EVEN, PASS and CROWN; the ASM step may raise, with `ERR_CMD` the QUERY word (R161). -/
def State.runPipeline (s : State) : State :=
  s.loadSeed.writeGrid.writeEven.writePassages.writeCrown.assembleDoc (encode .query)

/-- QUERY (R161). -/
def execQuery (s : State) : Host.Outcome State Fault Refusal :=
  .next (s.unlessHalted State.runPipeline)

end Sys2Proof.Machine
end

