-- ==== Sys2Proof/Machine/Dispatch.lean ====
section
/-! DEFINITION. Machine/Dispatch.lean: one arm per command (spec/30_encoding.md R71). -/

namespace Sys2Proof.Machine

def exec (i : Instr) (s : State) : Host.Outcome State Fault Refusal :=
  match i with
  | .nop => Sys2Proof.Machine.execNop s
  | .ldseed => Sys2Proof.Machine.execLdseed s
  | .decode => Sys2Proof.Machine.execDecode s
  | .even => Sys2Proof.Machine.execEven s
  | .pass => Sys2Proof.Machine.execPass s
  | .crown => Sys2Proof.Machine.execCrown s
  | .asm => Sys2Proof.Machine.execAsm s
  | .query => Sys2Proof.Machine.execQuery s

end Sys2Proof.Machine
end

