-- ==== Sys2Proof/Machine/HostActions.lean ====
section
/-! DEFINITION. Machine/HostActions.lean: what the host's actions do to the machine (spec/70_reset_and_hazards.md
R190, R196 to R199, R204; 30_encoding.md R72, R74; 93_implementation_defined.md U6, U7, U13). -/

namespace Sys2Proof.Machine

/-- An illegal word raises `ILLEGAL_CMD`, unless the block is halted (30_encoding.md R74). -/
def takeIllegal (w : Byte) (s : State) : Host.Outcome State Fault Refusal :=
  .next (s.unlessHalted fun s => s.raise w .illegalCmd)

/-- The block takes the command word `w` (30_encoding.md R72). -/
def takeCommand (w : Byte) (s : State) : Host.Outcome State Fault Refusal :=
  match decodeWord w with
  | .ok i => exec i s
  | .error _ => takeIllegal w s

/-- The command samples `seed_in`: LDSEED or QUERY, not halted (R197; log 9). -/
def samplesSeedIn (w : Byte) (s : State) : Bool := !s.fault && (w == encode .ldseed || w == encode .query)

/-- The command may read the store: ASM or QUERY, not halted (R199; log 9). -/
def readsStore (w : Byte) (s : State) : Bool := !s.fault && (w == encode .asm || w == encode .query)

/-- The command comes to ask the store for a fragment: as `readsStore`, and ASM past its tests of `SEED_V` and
`GRID_V` (44_assemble.md R130). -/
def asksStore (w : Byte) (s : State) : Bool :=
  !s.fault && ((w == encode .asm && s.seedV && s.gridV) || w == encode .query)

/-- After the command, the host's or the store's change of an input takes effect. -/
def thenChange (o : Host.Outcome State Fault Refusal) (f : State → State) : Host.Outcome State Fault Refusal :=
  match o with
  | .next s => .next (f s)
  | .fault r => .fault r
  | .refused r => .refused r

/-- The word `w` is taken and `d` happens while it executes. `rst` aborts the command (R190). An input that moves
under a command that does not read it does no harm; under one that does, the spec gives the step no meaning
and the model stops by name (log 9). -/
def takeDisturbed (w : Byte) (d : Disturbance) (s : State) : Host.Outcome State Fault Refusal :=
  match d with
  | .rst => .next s.hardReset
  | .seedMoves v =>
    if samplesSeedIn w s then .refused .seedInMoved
    else thenChange (takeCommand w s) fun s => { s with seedIn := v }
  | .storeChanges F =>
    if readsStore w s then .refused .storeChanged
    else thenChange (takeCommand w s) fun s => { s with frags := F }
  | .storeSilent => if asksStore w s then .fault .storeSilent else takeCommand w s

/-- One action of the host (R196, R201). -/
def hostAct (a : HostAction) (s : State) : Host.Outcome State Fault Refusal :=
  match a with
  | .command w => takeCommand w s
  | .setSeedIn v => .next { s with seedIn := v }
  | .setFragment id content => .next { s with frags := s.frags.set id.val content id.isLt }
  | .setDocAddr a => .next { s with docAddr := a }
  | .assertReset => .next s.hardReset
  | .disturbed w d => takeDisturbed w d s

/-- The next thing that happens: the host's oldest action still to come; with none, the block "idles with
`cmd_ready = 1` and all state kept" (60_exceptions.md R185). -/
def nextAction (s : State) : Host.Outcome State Fault Refusal :=
  match s.host with
  | [] => .next s
  | a :: rest => hostAct a { s with host := rest }

end Sys2Proof.Machine
end

