-- ==== Sys2Proof/Machine/Step.lean ====
section
/-! DEFINITION. Machine/Step.lean: one step of the machine (spec/30_encoding.md R72, 70_reset_and_hazards.md
R201). -/

namespace Sys2Proof.Machine

/-- One step: the host's next action is carried out, a command to its completion. -/
def step (s : State) : Host.Outcome State Fault Refusal := nextAction s

/-- `s` with the row's word (bits above `nbits` zero) as the host's next action: the host hands the block each
command word (10_state.md R23; log 7), so the next step takes exactly it. -/
def State.withFetchWord (s : State) (nbits w : Nat) : State :=
  { s with host := .command (tableByte nbits w) :: s.host }

end Sys2Proof.Machine
end

