-- ==== Sys2Proof/Machine/Listing.lean ====
section
/-! DEFINITION. Machine/Listing.lean: program listings (spec/30_encoding.md R76, R77). A listing is not state of
the block: its command lines are the words the host issues, its directives what the host does between them. -/

namespace Sys2Proof

/-- The mnemonic of a command, upper case (R71, R76). -/
def Instr.mnemonic : Instr → List Char
  | .nop => ['N', 'O', 'P']
  | .ldseed => ['L', 'D', 'S', 'E', 'E', 'D']
  | .decode => ['D', 'E', 'C', 'O', 'D', 'E']
  | .even => ['E', 'V', 'E', 'N']
  | .pass => ['P', 'A', 'S', 'S']
  | .crown => ['C', 'R', 'O', 'W', 'N']
  | .asm => ['A', 'S', 'M']
  | .query => ['Q', 'U', 'E', 'R', 'Y']

/-- The command of a mnemonic; there are no pseudo-instructions (R77). -/
def Instr.ofMnemonic (cs : List Char) : Option Instr :=
  (opcodeTable.map (·.instr)).find? fun i => i.mnemonic == cs

namespace Machine

/-- A line of a listing that does something (R76). -/
inductive ListingLine where
  /-- A command line. -/
  | command (i : Instr)
  /-- `.seed`: `seed_in` is driven to this value and held. -/
  | seed (v : BitVec 256)
  /-- `.frag <id> "<text>"`. -/
  | frag (id : Fin 10) (text : Bytes)
  /-- `.nofrag <id>`. -/
  | nofrag (id : Fin 10)
  /-- `.reset`. -/
  | reset
deriving DecidableEq, Repr

/-- "A listing's encoding is the sequence of its command bytes in order, one byte per command line" (R76). -/
def listingEncoding (ls : List ListingLine) : Bytes :=
  ls.filterMap fun l =>
    match l with
    | .command i => some (encode i)
    | .seed _ => none
    | .frag _ _ => none
    | .nofrag _ => none
    | .reset => none

/-- What the host does at a line (R76). -/
def lineAction : ListingLine → HostAction
  | .command i => .command (encode i)
  | .seed v => .setSeedIn v
  | .frag id text => .setFragment id (some text)
  | .nofrag id => .setFragment id none
  | .reset => .assertReset

/-- What the host does under a listing. -/
def listingActions (ls : List ListingLine) : List HostAction := ls.map lineAction

/-- Why a line is refused. -/
inductive ListingError where
  /-- The first word is neither a mnemonic nor a directive. -/
  | unknownWord
  /-- Something follows a line that takes no more. -/
  | trailing
  /-- `.seed` is not followed by 64 hexadecimal digits. -/
  | badSeed
  /-- A fragment id is not one of `0..9`. -/
  | badFragment
  /-- The text of `.frag` is not a quoted ASCII string. -/
  | badText
deriving DecidableEq, Repr

/-! Blanks and tabs separate words, digits of `.seed` may be of either case, and the text of `.frag` runs from
its first quote to the next one: DESIGN CHOICE (log 16). -/

def isBlank (c : Char) : Bool := c == ' ' || c == '\t'

/-- Nothing but blanks, or a comment, which "starts with `;` and runs to the end of the line" (R76). -/
def atEnd (cs : List Char) : Bool :=
  match cs.dropWhile isBlank with
  | [] => true
  | c :: _ => c == ';'

/-- The next word and what follows it. -/
def nextWord (cs : List Char) : List Char × List Char :=
  (cs.dropWhile isBlank).span fun c => !isBlank c && c != ';'

/-- The value of a hexadecimal digit. -/
def hexDigit (c : Char) : Option Nat :=
  if '0' ≤ c ∧ c ≤ '9' then some (c.toNat - '0'.toNat)
  else if 'a' ≤ c ∧ c ≤ 'f' then some (c.toNat - 'a'.toNat + 10)
  else if 'A' ≤ c ∧ c ≤ 'F' then some (c.toNat - 'A'.toNat + 10)
  else none

/-- The number of a sequence of hexadecimal digits, the first the most significant. -/
def hexNumber (cs : List Char) : Option Nat :=
  cs.foldl (fun acc c =>
    match acc, hexDigit c with
    | some n, some d => some (16 * n + d)
    | _, _ => none) (some 0)

/-- A fragment id: one decimal digit (20_memory.md R51). -/
def fragIdOf (cs : List Char) : Option (Fin 10) :=
  match cs with
  | [c] => if h : c.toNat - '0'.toNat < 10 ∧ '0' ≤ c then some ⟨c.toNat - '0'.toNat, h.1⟩ else none
  | _ => none

/-- The quoted text of `.frag`, as ASCII bytes, and what follows it. -/
def quotedText (cs : List Char) : Option (Bytes × List Char) :=
  match cs.dropWhile isBlank with
  | '"' :: rest =>
    let text := rest.takeWhile fun c => c != '"'
    match rest.dropWhile fun c => c != '"' with
    | '"' :: after => if text.all fun c => c.toNat < 128 then some (text.map fun c => BitVec.ofNat 8 c.toNat, after) else none
    | _ => none
  | _ => none

/-- The line, if what follows it is nothing. -/
def endedBy (l : ListingLine) (rest : List Char) : Except ListingError (Option ListingLine) :=
  if atEnd rest then .ok (some l) else .error .trailing

/-- One line of a listing; an empty line or a comment is no line (R76). -/
def parseLine (cs : List Char) : Except ListingError (Option ListingLine) :=
  if atEnd cs then .ok none
  else
    let (word, rest) := nextWord cs
    if word == ['.', 'r', 'e', 's', 'e', 't'] then endedBy .reset rest
    else if word == ['.', 's', 'e', 'e', 'd'] then
      let (digits, after) := nextWord rest
      match hexNumber digits with
      | some n => if digits.length = 64 then endedBy (.seed (BitVec.ofNat 256 n)) after else .error .badSeed
      | none => .error .badSeed
    else if word == ['.', 'n', 'o', 'f', 'r', 'a', 'g'] then
      let (id, after) := nextWord rest
      match fragIdOf id with
      | some k => endedBy (.nofrag k) after
      | none => .error .badFragment
    else if word == ['.', 'f', 'r', 'a', 'g'] then
      let (id, after) := nextWord rest
      match fragIdOf id, quotedText after with
      | some k, some (text, tail) => endedBy (.frag k text) tail
      | some _, none => .error .badText
      | none, _ => .error .badFragment
    else
      match Instr.ofMnemonic word with
      | some i => endedBy (.command i) rest
      | none => .error .unknownWord

end Machine

end Sys2Proof
end

