-- ==== Sys2Proof/Machine/Ports.lean ====
section
/-! DEFINITION. Machine/Ports.lean: what the host reads (spec/10_state.md R32, R33). A read has no side effect, so
each port is a function of the state. A port whose register is not valid has no value (`none`): "its value
is unspecified and a model gives it no value". `frag_id` and `frag_idx` are driven only while ASM executes
and have no value between commands; the store's answers are `FragStore.present`, `.len`, `.read` (log 10). -/

namespace Sys2Proof.Machine

/-- A port that is defined only while its valid flag is `1` (R33). -/
def guarded {α : Type} (flag : Bool) (v : α) : Option α := if flag then some v else none

/-- `seed_out`: byte `i` at bits `255-8i : 248-8i` (R32). -/
def seedBits (S : Seed) : BitVec 256 :=
  S.toList.foldl (fun acc b => (acc <<< 8) ||| b.setWidth 256) 0

/-- Byte `a` of the document as the host reads it, defined "only while `DOC_V = 1` and `doc_addr < DOC_LEN`"
(R33). -/
def State.docByteAt (s : State) (a : Nat) : Option Byte :=
  if s.docV = true ∧ a < s.docLen.toNat then s.doc.read a else none

/-- Byte `k` of `crown_txt`, at bits `39-8k : 32-8k`; defined while `CROWN_V = 1` and `k < CROWN_TXT_LEN`
(R30, R32, R33). -/
def State.crownTxtAt (s : State) (k : Fin 5) : Option Byte :=
  if s.crownV = true ∧ k.val < s.crownTxtLen.toNat then some (s.crownTxt.get k) else none

/-- The output ports (R32). -/
structure Ports where
  cmdReady : BitVec 1
  status : BitVec 8
  err : BitVec 8
  errCmd : BitVec 8
  seedOut : Option (BitVec 256)
  gridOut : Option (BitVec 256)
  evenScore : Option (BitVec 8)
  evenLabel : Option (BitVec 24)
  passages : Option (BitVec 8)
  crownRank : Option (BitVec 8)
  crownQty : Option (BitVec 8)
  crownTxt : Vector (Option Byte) 5
  crownTxtLen : Option (BitVec 8)
  docLen : BitVec 32
  docByte : Option (BitVec 8)
  fault : BitVec 1
deriving DecidableEq, Repr

/-- What every output port shows between commands. `cmd_ready` is `1` then (70_reset_and_hazards.md R191, R200;
log 15). -/
def State.ports (s : State) : Ports where
  cmdReady := 1
  status := s.status
  err := s.err
  errCmd := s.errCmd
  seedOut := guarded s.seedV (seedBits s.seed)
  gridOut := guarded s.gridV s.grid.bits
  evenScore := guarded s.evenV s.evenScore
  evenLabel := guarded s.evenV (s.evenLabel.get 0 ++ s.evenLabel.get 1 ++ s.evenLabel.get 2)
  passages := guarded s.passV s.passages
  crownRank := guarded s.crownV s.crownRank
  crownQty := guarded s.crownV s.crownQty
  crownTxt := Vector.ofFn s.crownTxtAt
  crownTxtLen := guarded s.crownV s.crownTxtLen
  docLen := s.docLen
  docByte := s.docByteAt s.docAddr.toNat
  fault := BitVec.ofBool s.fault

end Sys2Proof.Machine
end

