-- ==== Sys2Proof/Safety.lean ====
section
/-! DEFINITION. Safety.lean: what counts as a good run (spec/70_reset_and_hazards.md R201), the invariants of
spec/10_state.md R34 and R27, what of a state is visible (R33, R36), and the spec's own set definitions of the
passage count (42_passages.md R111, R112) and of the crown (43_crown.md R121, R122), in whose terms claims
are stated. -/

namespace Sys2Proof

/-! ## The graph of the passage counter -/

/-- Two cells are joined: same column and rows at distance 1, or same row and columns at circular distance 1
(R111). -/
def joined (x y : Cell) : Prop :=
  (x.2 = y.2 ∧ (x.1.val + 1 = y.1.val ∨ y.1.val + 1 = x.1.val)) ∨
    (x.1 = y.1 ∧ (y.2.val = (x.2.val + 1) % 64 ∨ y.2.val = (x.2.val + 63) % 64))

theorem joined_symm {x y : Cell} (h : joined x y) : joined y x := by
  rcases h with ⟨hc, h | h⟩ | ⟨hr, h | h⟩
  · exact .inl ⟨hc.symm, .inr h⟩
  · exact .inl ⟨hc.symm, .inl h⟩
  · exact .inr ⟨hr.symm, .inr (by have := x.2.isLt; omega)⟩
  · exact .inr ⟨hr.symm, .inl (by have := x.2.isLt; omega)⟩

theorem not_joined_self (x : Cell) : ¬ joined x x := by
  rintro (⟨-, h | h⟩ | ⟨-, h | h⟩)
  · omega
  · omega
  · have := x.2.isLt; omega
  · have := x.2.isLt; omega

/-- The graph of R111: its nodes are the open cells, its edges the joined pairs of them. -/
def openGraph (g : Grid) : SimpleGraph {x : Cell // g.isOpen x = true} where
  Adj x y := joined x.val y.val
  symm := ⟨fun _ _ h => joined_symm h⟩
  loopless := ⟨fun x h => not_joined_self x.val h⟩

/-- A component that contains "at least one node in row 0 and at least one node in row 3" (R112). -/
def spansRings (g : Grid) (K : (openGraph g).ConnectedComponent) : Prop :=
  (∃ x ∈ K.supp, x.val.1 = 0) ∧ ∃ y ∈ K.supp, y.val.1 = 3

/-! ## The crown -/

/-- `pal(G, s, L)` as R121 states it. -/
def IsPal (g : Grid) (s : Sector) (L : Nat) : Prop :=
  ∀ r : Ring, ∀ k : Nat, k < L / 2 → g.cell r (sectorOf (s.val + k)) = g.cell r (sectorOf (s.val + L - 1 - k))

/-- One pair of the reference loop (R122). -/
def crownTry (g : Grid) (s : Sector) (best : Nat × Nat) (L : Nat) : Nat × Nat :=
  if pal g s L then
    if L > best.1 then (L, 1) else if L = best.1 then (best.1, best.2 + 1) else best
  else best

/-- The reference loop with its tie tracking: starts in increasing order, for each the lengths 2 to 64 (R122). -/
def crownLoop (g : Grid) : Nat × Nat :=
  (List.finRange 64).foldl (fun best s => (List.range' 2 63).foldl (crownTry g s) best) (0, 0)

namespace Machine

/-! ## Runs -/

/-- The end state of a good run (R201). -/
def State.good (s : State) : Prop := s.fault = false

/-- A launch state: the state after reset with any parameters, ports, store content and host actions, none of
which reset touches (00_scope.md R11, R13). -/
def State.launch (cfg : Config) (seedIn : BitVec 256) (frags : FragStore) (docAddr : BitVec 32)
    (host : List HostAction) : State :=
  { State.reset with cfg := cfg, seedIn := seedIn, frags := frags, docAddr := docAddr, host := host }

/-- Some number of steps, none of them stopping, leads from `s` to `t`. -/
inductive State.leadsTo (s : State) : State → Prop where
  | refl : s.leadsTo s
  | next {t u : State} (h : s.leadsTo t) (hstep : step t = .next u) : s.leadsTo u

/-- `s` is a state of some run: a reset followed by a finite list of host actions (R201). -/
def State.reached (s : State) : Prop :=
  ∃ cfg seedIn frags docAddr host, (State.launch cfg seedIn frags docAddr host).leadsTo s

/-- All ten fragments are present (70_reset_and_hazards.md R192). -/
abbrev complete (F : FragStore) : Prop := ∀ id : Fin 10, F.present id = true

/-- `id` is the lowest absent fragment (60_exceptions.md R171). -/
abbrev lowestAbsent (F : FragStore) (id : Fin 10) : Prop :=
  F.present id = false ∧ ∀ j : Fin 10, j < id → F.present j = true

/-- The host's next action is a reset (R190). -/
def State.resetNext (s : State) : Prop :=
  ∃ rest, s.host = .assertReset :: rest ∨ ∃ w, s.host = .disturbed w .rst :: rest

/-- The next thing the block executes is ASM or QUERY, the commands that assemble a document (10_state.md R35); a halted
block executes neither (60_exceptions.md R174). -/
def State.assemblesNext (s : State) : Prop :=
  s.fault = false ∧ ∃ w rest, (s.host = .command w :: rest ∨ ∃ d, s.host = .disturbed w d :: rest) ∧
    (w = encode .asm ∨ w = encode .query)

/-- A run that carries along the content of the store at its last ASM or QUERY, `none` before the first
(10_state.md R34: "the fragment store content at the time of the ASM that set `DOC_V`"). -/
inductive State.RunWith : Option FragStore → State → Prop where
  | launch (cfg : Config) (seedIn : BitVec 256) (frags : FragStore) (docAddr : BitVec 32) (host : List HostAction) :
      RunWith none (State.launch cfg seedIn frags docAddr host)
  | assembled {F : Option FragStore} {s t : State} (h : RunWith F s) (hnext : s.assemblesNext)
      (hstep : step s = .next t) : RunWith (some s.frags) t
  | other {F : Option FragStore} {s t : State} (h : RunWith F s) (hnext : ¬ s.assemblesNext)
      (hstep : step s = .next t) : RunWith F t

/-! ## Invariants -/

/-- The invariants of R34: a valid register holds the value of its function at the current seed. -/
structure State.Inv (s : State) : Prop where
  grid_valid : s.gridV = true → s.seedV = true ∧ s.grid = decodeGrid s.seed
  even_valid : s.evenV = true → s.seedV = true ∧ s.evenScore.toNat = (evenness s.seed).1 ∧
    s.evenLabel = (evenness s.seed).2
  pass_valid : s.passV = true → s.gridV = true ∧ s.passages.toNat = countPassages s.grid
  crown_valid : s.crownV = true → s.gridV = true ∧ s.crownRank.toNat = (crown s.grid).1 ∧
    s.crownQty.toNat = (crown s.grid).2 ∧
    s.crownTxtLen.toNat = (crownText (crown s.grid).1 (crown s.grid).2).length ∧
    ∀ k : Fin 5, k.val < s.crownTxtLen.toNat →
      some (s.crownTxt.get k) = (crownText (crown s.grid).1 (crown s.grid).2)[k.val]?
  doc_valid : s.docV = true → s.seedV = true ∧ s.gridV = true ∧ ∃ F : FragStore, complete F ∧
    s.docLen.toNat = (assemble s.cfg s.seed s.grid F).length ∧
    ∀ k, k < s.docLen.toNat → s.doc.read k = (assemble s.cfg s.seed s.grid F)[k]?
  doc_invalid : s.docV = false → s.docLen = 0
  fault_code : s.fault = false ↔ s.errCode = 0

/-- The document space: canonical form, no offset outside the buffer, and a length that fits (R31,
20_memory.md R56, R62). -/
structure State.DocInv (s : State) : Prop where
  canonical : s.doc.wf = true
  inside : ∀ x ∈ s.doc, x.1 < s.cfg.docMax
  fits : s.docLen.toNat ≤ s.cfg.docMax

/-- The values of the error registers (R27): codes `0..5`, an info only for `FRAG_MISSING` and then an id
`0..9`; with no fault all three are `0`. -/
structure State.ErrInv (s : State) : Prop where
  code_range : s.errCode.toNat ≤ 5
  info_range : s.errInfo.toNat ≤ 9
  info_only_missing : s.errCode.toNat ≠ 4 → s.errInfo = 0
  no_fault : s.fault = false → s.errCode = 0 ∧ s.errInfo = 0 ∧ s.errCmd = 0
  fault_coded : s.fault = true → s.errCode ≠ 0

/-! ## What is visible -/

/-- Two states that differ at most in what is unspecified (R30, R31, R33, R36): registers whose valid flag is `0`,
`CROWN_TXT` past its length, `DOC` past `DOC_LEN`, and the model's own count of draws. -/
structure State.SameVisible (s t : State) : Prop where
  seedV : s.seedV = t.seedV
  gridV : s.gridV = t.gridV
  evenV : s.evenV = t.evenV
  passV : s.passV = t.passV
  crownV : s.crownV = t.crownV
  docV : s.docV = t.docV
  fault : s.fault = t.fault
  errCode : s.errCode = t.errCode
  errInfo : s.errInfo = t.errInfo
  errCmd : s.errCmd = t.errCmd
  docLen : s.docLen = t.docLen
  cfg : s.cfg = t.cfg
  seedIn : s.seedIn = t.seedIn
  frags : s.frags = t.frags
  docAddr : s.docAddr = t.docAddr
  host : s.host = t.host
  seed : s.seedV = true → s.seed = t.seed
  grid : s.gridV = true → s.grid = t.grid
  even : s.evenV = true → s.evenScore = t.evenScore ∧ s.evenLabel = t.evenLabel
  pass : s.passV = true → s.passages = t.passages
  crown : s.crownV = true → s.crownRank = t.crownRank ∧ s.crownQty = t.crownQty ∧
    s.crownTxtLen = t.crownTxtLen ∧
    ∀ k : Fin 5, k.val < s.crownTxtLen.toNat → s.crownTxt.get k = t.crownTxt.get k
  doc : s.docV = true → ∀ k, k < s.docLen.toNat → s.doc.read k = t.doc.read k

/-- Two outcomes of a step that differ at most in what is unspecified. -/
def sameOutcome (a b : Host.Outcome State Fault Refusal) : Prop :=
  match a, b with
  | .next s, .next t => s.SameVisible t
  | .fault r, .fault r' => r = r'
  | .refused r, .refused r' => r = r'
  | _, _ => False

end Machine

end Sys2Proof
end

