-- ==== Sys2Proof/Certificates/Slice0/Obligations.lean ====
section
/-! DEFINITION. Certificates/Slice0/Obligations.lean: the statements for the provers. A frame is written as a record
update: a next state equal to `{ s with ... }` leaves every field not named as it was. -/

open Sys2Proof Sys2Proof.Machine

/-! ## Command words and steps -/

/-- 30_encoding.md R70, R71: the eight words, compared as a whole. -/
def Obligations.CommandWordsAreTheEightOfTheTable : Prop :=
  [encode .nop, encode .ldseed, encode .decode, encode .even, encode .pass, encode .crown, encode .asm,
    encode .query] = [0x00, 0x01, 0x02, 0x03, 0x04, 0x05, 0x06, 0x07] ∧
  (∀ (w : Byte) (i : Instr), decodeWord w = .ok i ↔ w = encode i) ∧
  (∀ row ∈ opcodeTable, row.mask = 0xFF)

/-- 30_encoding.md R74: every other word is illegal, raises `ILLEGAL_CMD` with `ERR_CMD` the word and changes nothing
else; no word but `0x00` acts as a no-operation; a halted block ignores it. -/
def Obligations.IllegalWordsRaiseIllegalCmd : Prop :=
  (∀ (w : Byte) (s : State), 0x08 ≤ w.toNat →
    decodeWord w = .error (.illegalCmd w) ∧
    (s.fault = false →
      takeCommand w s = .next { s with fault := true, errCode := 1, errInfo := 0, errCmd := w }) ∧
    (s.fault = true → takeCommand w s = .next s)) ∧
  (∀ w : Byte, w ≠ 0x00 → ∃ s : State, s.fault = false ∧ takeCommand w s ≠ .next s)

/-- 30_encoding.md R76: a program's bytes are its commands' words, one byte each, and give the commands back. -/
def Obligations.ProgramBytesGiveTheCommandsBack : Prop :=
  ∀ is : List Instr, (encodeProgram is).length = is.length ∧ decodeProgram (encodeProgram is) = .ok is

/-- 30_encoding.md R72, R74: a step with a command word pending takes exactly that word, whichever it is; the host's list
moves on. A word that decodes runs its command; any other raises `ILLEGAL_CMD`, or is ignored while halted. -/
def Obligations.StepRunsTheOfferedCommand : Prop :=
  ∀ (s : State) (w : Byte) (rest : List HostAction), s.host = .command w :: rest →
    step s = takeCommand w { s with host := rest } ∧
    (∀ i, decodeWord w = .ok i → step s = exec i { s with host := rest }) ∧
    (0x08 ≤ w.toNat → s.fault = false →
      step s = .next { s with host := rest, fault := true, errCode := 1, errInfo := 0, errCmd := w }) ∧
    (0x08 ≤ w.toNat → s.fault = true → step s = .next { s with host := rest })

/-- The word placed by `withFetchWord` is the next to run. -/
def Obligations.FetchWordIsTheNextCommand : Prop :=
  ∀ (s : State) (i : Instr), decodeTableWord 8 (encode i).toNat = some i ∧
    step (s.withFetchWord 8 (encode i).toNat) = exec i s

/-- 60_exceptions.md R185, 70_reset_and_hazards.md R191: with nothing issued the block keeps all its state. -/
def Obligations.IdleBlockKeepsItsState : Prop :=
  ∀ s : State, s.host = [] → step s = .next s

/-- The host's other actions between commands change the port or the fragment they name and nothing else
(70_reset_and_hazards.md R196, R199). -/
def Obligations.HostInputsChangeOnlyThemselves : Prop :=
  ∀ (s : State) (rest : List HostAction),
    (∀ v, s.host = .setSeedIn v :: rest → step s = .next { s with host := rest, seedIn := v }) ∧
    (∀ a, s.host = .setDocAddr a :: rest → step s = .next { s with host := rest, docAddr := a }) ∧
    (∀ id c, s.host = .setFragment id c :: rest → ∃ F : FragStore, F.bytes? id = c ∧
      (∀ j, j ≠ id → F.bytes? j = s.frags.bytes? j) ∧ step s = .next { s with host := rest, frags := F })

/-- A breach of the host's duties: the step stops by name where the command reads the input that moves
(70_reset_and_hazards.md R197, R199, R204; log 9), and the command runs as ever where it does not. -/
def Obligations.DisturbedCommandsStopOnlyWhereTheyRead : Prop :=
  ∀ (s : State) (rest : List HostAction) (w : Byte),
    (∀ v, s.host = .disturbed w (.seedMoves v) :: rest →
      (s.fault = false ∧ (w = 0x01 ∨ w = 0x07) → step s = .refused .seedInMoved) ∧
      (s.fault = true ∨ (w ≠ 0x01 ∧ w ≠ 0x07) → ∃ t, takeCommand w { s with host := rest } = .next t ∧
        step s = .next { t with seedIn := v })) ∧
    (∀ F, s.host = .disturbed w (.storeChanges F) :: rest →
      (s.fault = false ∧ (w = 0x06 ∨ w = 0x07) → step s = .refused .storeChanged) ∧
      (s.fault = true ∨ (w ≠ 0x06 ∧ w ≠ 0x07) → ∃ t, takeCommand w { s with host := rest } = .next t ∧
        step s = .next { t with frags := F })) ∧
    (s.host = .disturbed w .storeSilent :: rest →
      (s.fault = false ∧ (w = 0x07 ∨ (w = 0x06 ∧ s.seedV = true ∧ s.gridV = true)) →
        step s = .fault .storeSilent) ∧
      (s.fault = true ∨ (w ≠ 0x07 ∧ ¬ (w = 0x06 ∧ s.seedV = true ∧ s.gridV = true)) →
        step s = takeCommand w { s with host := rest }))

/-- 70_reset_and_hazards.md R204: under a host that keeps its duties every step answers a next state. -/
def Obligations.DutifulHostNeverStopsTheMachine : Prop :=
  ∀ s : State, (∀ w d rest, s.host = .disturbed w d :: rest → d = .rst) → ∃ t, step s = .next t

/-! ## Reset -/

/-- 10_state.md R36: the state after reset, and that no guarded port shows a value then. -/
def Obligations.ResetClearsFlagsErrorsAndLength : Prop :=
  let s := State.reset
  s.seedV = false ∧ s.gridV = false ∧ s.evenV = false ∧ s.passV = false ∧ s.crownV = false ∧ s.docV = false ∧
  s.fault = false ∧ s.errCode = 0 ∧ s.errInfo = 0 ∧ s.errCmd = 0 ∧ s.docLen = 0 ∧
  s.status = 0x00 ∧ s.err = 0x00 ∧
  s.ports.seedOut = none ∧ s.ports.gridOut = none ∧ s.ports.evenScore = none ∧ s.ports.evenLabel = none ∧
  s.ports.passages = none ∧ s.ports.crownRank = none ∧ s.ports.crownQty = none ∧
  s.ports.crownTxtLen = none ∧ (∀ k, s.crownTxtAt k = none) ∧ ∀ a, s.docByteAt a = none

/-- 70_reset_and_hazards.md R190: `rst` between commands, while halted or while a command executes: flags, error
registers and `DOC_LEN` go to 0 whatever they were, and ports, store and parameters are not touched. -/
def Obligations.AssertedResetReturnsFromEveryState : Prop :=
  ∀ (s : State) (rest : List HostAction),
    (s.host = .assertReset :: rest ∨ ∃ w, s.host = .disturbed w .rst :: rest) →
    ∃ t, step s = .next t ∧
      t.status = 0x00 ∧ t.err = 0x00 ∧ t.errCmd = 0 ∧ t.docLen = 0 ∧
      t.cfg = s.cfg ∧ t.seedIn = s.seedIn ∧ t.frags = s.frags ∧ t.docAddr = s.docAddr ∧ t.host = rest

/-- 10_state.md R25, 60_exceptions.md R177, 70_reset_and_hazards.md R190: "Reset is the only event that clears
`FAULT`". -/
def Obligations.OnlyResetClearsFault : Prop :=
  ∀ s t : State, step s = .next t → s.fault = true → t.fault = false → s.resetNext

/-! ## Faults and the halt -/

/-- 60_exceptions.md R174: a halted block takes and ignores every word, legal or illegal. -/
def Obligations.HaltedBlockIgnoresEveryCommand : Prop :=
  ∀ s : State, s.fault = true → (∀ w : Byte, takeCommand w s = .next s) ∧ ∀ i : Instr, exec i s = .next s

/-- 60_exceptions.md R176 with the codes and infos of R171: one fault at most, the first that applies. -/
def Obligations.FaultTestsAreMadeInTheFixedOrder : Prop :=
  ∀ (w : Byte) (s : State), ∃ t, takeCommand w s = .next t ∧
    if s.fault = true then t = s
    else if 0x08 ≤ w.toNat then t.fault = true ∧ t.errCode = 1 ∧ t.errInfo = 0 ∧ t.errCmd = w
    else if (w = 0x02 ∨ w = 0x03 ∨ w = 0x06) ∧ s.seedV = false then
      t.fault = true ∧ t.errCode = 2 ∧ t.errInfo = 0 ∧ t.errCmd = w
    else if (w = 0x04 ∨ w = 0x05 ∨ w = 0x06) ∧ s.gridV = false then
      t.fault = true ∧ t.errCode = 3 ∧ t.errInfo = 0 ∧ t.errCmd = w
    else if w = 0x06 ∨ w = 0x07 then
      (∀ id, lowestAbsent s.frags id →
        t.fault = true ∧ t.errCode = 4 ∧ t.errInfo.toNat = id.val ∧ t.errCmd = w) ∧
      (complete s.frags →
        if docLength s.cfg (if w = 0x07 then seedOfPort s.seedIn else s.seed) s.frags > s.cfg.docMax then
          t.fault = true ∧ t.errCode = 5 ∧ t.errInfo = 0 ∧ t.errCmd = w
        else t.fault = false ∧ t.errCode = s.errCode ∧ t.errInfo = s.errInfo ∧ t.errCmd = s.errCmd)
    else t.fault = false ∧ t.errCode = s.errCode ∧ t.errInfo = s.errInfo ∧ t.errCmd = s.errCmd

/-- 10_state.md R27: `ERR` is the two fields; the registers keep their legal values from reset on, and only a fault
entry, from an unhalted state, or a reset changes one of them. -/
def Obligations.ErrorRegistersAreWrittenOncePerReset : Prop :=
  (∀ s : State, s.err.extractLsb' 0 4 = s.errCode ∧ s.err.extractLsb' 4 4 = s.errInfo) ∧
  State.reset.ErrInv ∧
  (∀ s t : State, s.ErrInv → step s = .next t → t.ErrInv) ∧
  (∀ s t : State, step s = .next t →
    (t.errCode ≠ s.errCode ∨ t.errInfo ≠ s.errInfo ∨ t.errCmd ≠ s.errCmd) →
    (s.fault = false ∧ t.fault = true) ∨ s.resetNext)

/-- 10_state.md R26: the bits of `STATUS`. -/
def Obligations.StatusShowsTheFlags : Prop :=
  (∀ s : State, s.status.getLsbD 0 = s.seedV ∧ s.status.getLsbD 1 = s.gridV ∧ s.status.getLsbD 2 = s.evenV ∧
    s.status.getLsbD 3 = s.passV ∧ s.status.getLsbD 4 = s.crownV ∧ s.status.getLsbD 5 = s.docV ∧
    s.status.getLsbD 6 = false ∧ s.status.getLsbD 7 = s.fault) ∧
  State.reset.status = 0x00

/-! ## The commands -/

/-- 45_query_and_control.md R160. -/
def Obligations.NopChangesNothing : Prop := ∀ s : State, exec .nop s = .next s

/-- 40_seed_and_decode.md R90: byte `i` of the seed is `seed_in[255-8i : 248-8i]` (20_memory.md R58), the five derived
flags and `DOC_LEN` are cleared, nothing else changes. -/
def Obligations.LdseedLoadsTheSeedAndClearsTheDerived : Prop :=
  ∀ s : State,
    (s.fault = true → exec .ldseed s = .next s) ∧
    (s.fault = false → ∃ S : Seed,
      (∀ (i : Fin 32) (b : Nat), b < 8 →
        (S.get i).getLsbD b = s.seedIn.getLsbD (248 - 8 * i.val + b)) ∧
      exec .ldseed s = .next { s with
        seed := S, seedV := true, gridV := false, evenV := false, passV := false, crownV := false,
        docV := false, docLen := 0 })

/-- 40_seed_and_decode.md R92 with the function of R93: high nibble to column `2i`, low nibble to `2i + 1`, the most
significant bit to row 0. -/
def Obligations.DecodeWritesTheGridOfTheSeed : Prop :=
  ∀ s : State,
    (s.fault = true → exec .decode s = .next s) ∧
    (s.fault = false → s.seedV = false →
      exec .decode s = .next { s with fault := true, errCode := 2, errInfo := 0, errCmd := 0x02 }) ∧
    (s.fault = false → s.seedV = true → ∃ G : Grid,
      (∀ (i : Fin 32) (r : Ring),
        G.cell r ⟨2 * i.val, by omega⟩ = (s.seed.get i).getLsbD (7 - r.val) ∧
        G.cell r ⟨2 * i.val + 1, by omega⟩ = (s.seed.get i).getLsbD (3 - r.val)) ∧
      exec .decode s = .next { s with grid := G, gridV := true })

/-- 41_evenness.md R100 with the functions of R101 and R102. -/
def Obligations.EvenWritesScoreAndLabel : Prop :=
  ∀ s : State,
    (s.fault = true → exec .even s = .next s) ∧
    (s.fault = false → s.seedV = false →
      exec .even s = .next { s with fault := true, errCode := 2, errInfo := 0, errCmd := 0x03 }) ∧
    (s.fault = false → s.seedV = true → ∃ (v : Byte) (l : Vector Byte 3),
      (let ones : Nat := ∑ i : Fin 32, ∑ b : Fin 8, ((s.seed.get i).getLsbD b.val).toNat
        let score : Nat := (128 - ((ones : Int) - 128).natAbs) * 10 / 128
        v.toNat = score ∧ score ≤ 10 ∧
        (score = 10 → l = #v[0x31, 0x2E, 0x30]) ∧
        (score ≠ 10 → l = #v[0x30, 0x2E, BitVec.ofNat 8 (0x30 + score)])) ∧
      exec .even s = .next { s with evenScore := v, evenLabel := l, evenV := true })

/-- 41_evenness.md R104: the map from the number of one bits to the score; it is symmetric and 10 is reached only at
128. -/
def Obligations.EvennessMapIsTheTable : Prop :=
  (∀ row ∈ ([(0, 12, 0), (13, 25, 1), (26, 38, 2), (39, 51, 3), (52, 63, 4), (64, 76, 5), (77, 89, 6),
      (90, 102, 7), (103, 115, 8), (116, 127, 9), (128, 128, 10)] : List (Nat × Nat × Nat)),
    ∀ ones : Nat, row.1 ≤ ones → ones ≤ row.2.1 →
      evenScoreOf ones = row.2.2 ∧ evenScoreOf (256 - ones) = row.2.2) ∧
  ∀ ones : Nat, evenScoreOf ones = 10 ↔ ones = 128

/-- 42_passages.md R110. -/
def Obligations.PassWritesThePassageCount : Prop :=
  ∀ s : State,
    (s.fault = true → exec .pass s = .next s) ∧
    (s.fault = false → s.gridV = false →
      exec .pass s = .next { s with fault := true, errCode := 3, errInfo := 0, errCmd := 0x04 }) ∧
    (s.fault = false → s.gridV = true → ∃ v : Byte, v.toNat = countPassages s.grid ∧
      exec .pass s = .next { s with passages := v, passV := true })

/-- 43_crown.md R120. The bytes of `CROWN_TXT` past its length are unspecified (10_state.md R30), so the statement
says nothing of them; `draws` is the model's own count (log 3). -/
def Obligations.CrownWritesItsFourRegisters : Prop :=
  ∀ s : State,
    (s.fault = true → exec .crown s = .next s) ∧
    (s.fault = false → s.gridV = false →
      exec .crown s = .next { s with fault := true, errCode := 3, errInfo := 0, errCmd := 0x05 }) ∧
    (s.fault = false → s.gridV = true →
      ∃ (rank qty len : Byte) (txt : Vector Byte 5) (n : Nat),
        rank.toNat = (crown s.grid).1 ∧ qty.toNat = (crown s.grid).2 ∧
        len.toNat = (crownText (crown s.grid).1 (crown s.grid).2).length ∧
        (∀ k : Fin 5, k.val < len.toNat →
          some (txt.get k) = (crownText (crown s.grid).1 (crown s.grid).2)[k.val]?) ∧
        exec .crown s = .next { s with
          crownRank := rank, crownQty := qty, crownTxt := txt, crownTxtLen := len, crownV := true, draws := n })

/-- 44_assemble.md R130 with its faults (R140, R141). The success clause has as a premise `GRID = decode(SEED)`, which
10_state.md R34 gives whenever `GRID_V = 1` and without which `len(d) = n` need not hold (log 12). -/
def Obligations.AsmWritesTheDocumentOrFaults : Prop :=
  ∀ s : State,
    (s.fault = true → exec .asm s = .next s) ∧
    (s.fault = false → s.seedV = false →
      exec .asm s = .next { s with fault := true, errCode := 2, errInfo := 0, errCmd := 0x06 }) ∧
    (s.fault = false → s.seedV = true → s.gridV = false →
      exec .asm s = .next { s with fault := true, errCode := 3, errInfo := 0, errCmd := 0x06 }) ∧
    (s.fault = false → s.seedV = true → s.gridV = true → ∀ id, lowestAbsent s.frags id →
      exec .asm s = .next { s with
        docV := false, docLen := 0, fault := true, errCode := 4, errInfo := BitVec.ofNat 4 id.val,
        errCmd := 0x06 }) ∧
    (s.fault = false → s.seedV = true → s.gridV = true → complete s.frags →
      docLength s.cfg s.seed s.frags > s.cfg.docMax →
      exec .asm s = .next { s with
        docV := false, docLen := 0, fault := true, errCode := 5, errInfo := 0, errCmd := 0x06 }) ∧
    (s.fault = false → s.seedV = true → s.gridV = true → s.grid = decodeGrid s.seed → complete s.frags →
      docLength s.cfg s.seed s.frags ≤ s.cfg.docMax → ∃ (m : Memory) (len : BitVec 32),
        len.toNat = docLength s.cfg s.seed s.frags ∧
        (assemble s.cfg s.seed s.grid s.frags).length = len.toNat ∧
        (∀ k, k < len.toNat → m.read k = (assemble s.cfg s.seed s.grid s.frags)[k]?) ∧
        exec .asm s = .next { s with doc := m, docLen := len, docV := true })

/-- Frame of the document space: ASM stores at offsets `0` to `docLength - 1` only when it succeeds, and every
other offset reads as before. That offsets past `DOC_LEN` keep their bytes is the model's choice (log 4); the spec
leaves them unspecified (10_state.md R31) and the host cannot read them (R33). -/
def Obligations.AsmStoresOnlyInsideTheDocument : Prop :=
  ∀ s t : State, exec .asm s = .next t →
    (t.fault = true → ∀ k, t.doc.read k = s.doc.read k) ∧
    (∀ k, docLength s.cfg s.seed s.frags ≤ k → t.doc.read k = s.doc.read k)

/-- 45_query_and_control.md R161. That the offsets from `DOC_LEN` on read as before when QUERY succeeds is the model's
choice (log 4): the spec leaves those bytes unspecified (10_state.md R31). -/
def Obligations.QueryRunsTheWholePipeline : Prop :=
  ∀ s : State,
    (s.fault = true → exec .query s = .next s) ∧
    (s.fault = false → ∃ t, exec .query s = .next t ∧
      t.seed = seedOfPort s.seedIn ∧ t.grid = decodeGrid t.seed ∧
      t.evenScore.toNat = (evenness t.seed).1 ∧ t.evenLabel = (evenness t.seed).2 ∧
      t.passages.toNat = countPassages t.grid ∧
      t.crownRank.toNat = (crown t.grid).1 ∧ t.crownQty.toNat = (crown t.grid).2 ∧
      t.crownTxtLen.toNat = (crownText (crown t.grid).1 (crown t.grid).2).length ∧
      (∀ k : Fin 5, k.val < t.crownTxtLen.toNat →
        some (t.crownTxt.get k) = (crownText (crown t.grid).1 (crown t.grid).2)[k.val]?) ∧
      t.cfg = s.cfg ∧ t.seedIn = s.seedIn ∧ t.frags = s.frags ∧ t.docAddr = s.docAddr ∧ t.host = s.host ∧
      (complete s.frags → docLength s.cfg t.seed s.frags ≤ s.cfg.docMax →
        t.status = 0x3F ∧ t.errCode = s.errCode ∧ t.errInfo = s.errInfo ∧ t.errCmd = s.errCmd ∧
        t.docLen.toNat = (assemble s.cfg t.seed t.grid s.frags).length ∧
        (∀ k, k < t.docLen.toNat → t.doc.read k = (assemble s.cfg t.seed t.grid s.frags)[k]?) ∧
        ∀ k, t.docLen.toNat ≤ k → t.doc.read k = s.doc.read k) ∧
      (∀ id, lowestAbsent s.frags id →
        t.status = 0x9F ∧ t.errCode = 4 ∧ t.errInfo.toNat = id.val ∧ t.errCmd = 0x07 ∧ t.docLen = 0 ∧
        t.doc = s.doc) ∧
      (complete s.frags → docLength s.cfg t.seed s.frags > s.cfg.docMax →
        t.status = 0x9F ∧ t.errCode = 5 ∧ t.errInfo = 0 ∧ t.errCmd = 0x07 ∧ t.docLen = 0 ∧ t.doc = s.doc))

/-- 45_query_and_control.md R162: QUERY and the sequence LDSEED, DECODE, EVEN, PASS, CROWN, ASM end in the same state, but
for `ERR_CMD` on a fault of the last step. -/
def Obligations.QueryEqualsTheSplitSequence : Prop :=
  ∀ s : State, s.fault = false → ∃ s1 s2 s3 s4 s5 s6 q : State,
    exec .ldseed s = .next s1 ∧ exec .decode s1 = .next s2 ∧ exec .even s2 = .next s3 ∧
    exec .pass s3 = .next s4 ∧ exec .crown s4 = .next s5 ∧ exec .asm s5 = .next s6 ∧ exec .query s = .next q ∧
    (s6.fault = false → q = s6) ∧
    (s6.fault = true → s6.errCmd = 0x06 ∧ q = { s6 with errCmd := 0x07 })

/-! ## Which command writes what -/

/-- 10_state.md R35 and the table of section 1: a register group changes only under the commands named for it, and no
command touches the parameters, the input ports, the store or the host's list. -/
def Obligations.RegistersChangeOnlyUnderTheirCommands : Prop :=
  ∀ (i : Instr) (s t : State), exec i s = .next t →
    (t.seed ≠ s.seed → i = .ldseed ∨ i = .query) ∧
    (t.grid ≠ s.grid → i = .decode ∨ i = .query) ∧
    (t.evenScore ≠ s.evenScore ∨ t.evenLabel ≠ s.evenLabel → i = .even ∨ i = .query) ∧
    (t.passages ≠ s.passages → i = .pass ∨ i = .query) ∧
    (t.crownRank ≠ s.crownRank ∨ t.crownQty ≠ s.crownQty ∨ t.crownTxt ≠ s.crownTxt ∨
      t.crownTxtLen ≠ s.crownTxtLen → i = .crown ∨ i = .query) ∧
    (t.doc ≠ s.doc → i = .asm ∨ i = .query) ∧
    (t.docLen ≠ s.docLen → i = .ldseed ∨ i = .asm ∨ i = .query) ∧
    (t.seedV ≠ s.seedV → i = .ldseed ∨ i = .query) ∧
    (t.gridV ≠ s.gridV → i = .ldseed ∨ i = .decode ∨ i = .query) ∧
    (t.evenV ≠ s.evenV → i = .ldseed ∨ i = .even ∨ i = .query) ∧
    (t.passV ≠ s.passV → i = .ldseed ∨ i = .pass ∨ i = .query) ∧
    (t.crownV ≠ s.crownV → i = .ldseed ∨ i = .crown ∨ i = .query) ∧
    (t.docV ≠ s.docV → i = .ldseed ∨ i = .asm ∨ i = .query) ∧
    t.cfg = s.cfg ∧ t.seedIn = s.seedIn ∧ t.frags = s.frags ∧ t.docAddr = s.docAddr ∧ t.host = s.host

/-- 10_state.md R41: a command given twice writes the same values again; nothing visible changes the second time. -/
def Obligations.RepeatedCommandChangesNothingVisible : Prop :=
  ∀ (i : Instr) (s t u : State), exec i s = .next t → exec i t = .next u → t.SameVisible u

/-! ## Seed, grid and their bijection -/

/-- 10_state.md R42: the bytes of `encode(G)`, `encode(decode(S)) = S` and `decode(encode(G)) = G`. -/
def Obligations.SeedAndGridDetermineEachOther : Prop :=
  (∀ (G : Grid) (i : Fin 32), ((encodeGrid G).get i).toNat = ∑ r : Ring,
    ((G.cell r ⟨2 * i.val, by omega⟩).toNat * 2 ^ (7 - r.val) +
      (G.cell r ⟨2 * i.val + 1, by omega⟩).toNat * 2 ^ (3 - r.val))) ∧
  (∀ S : Seed, encodeGrid (decodeGrid S) = S) ∧ ∀ G : Grid, decodeGrid (encodeGrid G) = G

/-- 40_seed_and_decode.md R94 (e): as many wall cells as one bits. -/
def Obligations.WallCellsAreTheOneBits : Prop :=
  ∀ S : Seed, ∑ r : Ring, ∑ c : Sector, ((decodeGrid S).cell r c).toNat = popcount S

/-! ## Passages -/

/-- 42_passages.md R112 with the graph of R111: the reference algorithm counts the connected components that hold a
node of row 0 and a node of row 3. -/
def Obligations.PassageCountIsTheNumberOfSpanningComponents : Prop :=
  ∀ g : Grid, countPassages g = Nat.card {K : (openGraph g).ConnectedComponent // spansRings g K}

/-- 42_passages.md R116: the range, and a seed that reaches the bound. -/
def Obligations.PassagesAreAtMostThirtyTwo : Prop :=
  (∀ g : Grid, countPassages g ≤ 32) ∧ countPassages (decodeGrid (Vector.replicate 32 0x0F)) = 32

/-- 42_passages.md R115: row 0 all wall, row 3 all wall, everything open. -/
def Obligations.PassageCornerCases : Prop :=
  (∀ g : Grid, (∀ c, g.cell 0 c = true) → countPassages g = 0) ∧
  (∀ g : Grid, (∀ c, g.cell 3 c = true) → countPassages g = 0) ∧
  (∀ g : Grid, (∀ r c, g.cell r c = false) → countPassages g = 1)

/-! ## Crown -/

/-- 43_crown.md R122 with the predicate of R121: the largest length with a palindrome, and how many starts have it. -/
def Obligations.CrownIsTheLongestPalindromeAndItsStarts : Prop :=
  ∀ g : Grid,
    ((crown g).1 = 0 ∧ (crown g).2 = 0 ∧ ∀ L s, 2 ≤ L → L ≤ 64 → ¬ IsPal g s L) ∨
    (2 ≤ (crown g).1 ∧ (crown g).1 ≤ 64 ∧ (∃ s, IsPal g s (crown g).1) ∧
      (∀ L s, L ≤ 64 → IsPal g s L → L ≤ (crown g).1) ∧
      (crown g).2 = Nat.card {s : Sector // IsPal g s (crown g).1})

/-- 43_crown.md R122: the reference loop with its tie tracking gives the same pair. -/
def Obligations.CrownEqualsTheReferenceLoop : Prop := ∀ g : Grid, crown g = crownLoop g

/-- 43_crown.md R123, all six facts. -/
def Obligations.CrownFacts : Prop :=
  ∀ g : Grid,
    ((crown g).1 = 0 ∨ (2 ≤ (crown g).1 ∧ (crown g).1 ≤ 64)) ∧
    ((crown g).1 = 0 ↔ (crown g).2 = 0) ∧
    (∀ s L, 4 ≤ L → L ≤ 64 → IsPal g s L → IsPal g (sectorOf (s.val + 1)) (L - 2)) ∧
    ((crown g).1 = 0 ↔ ∀ s, ¬ IsPal g s 2 ∧ ¬ IsPal g s 3) ∧
    (∀ s, IsPal g s 64 ↔ IsPal g (sectorOf (s.val + 32)) 64) ∧
    ((crown g).1 = 64 → (crown g).2 % 2 = 0 ∧ 2 ≤ (crown g).2) ∧
    ((∀ r c c', g.cell r c = g.cell r c') → (∀ s L, IsPal g s L) ∧ crown g = (64, 64))

/-- 43_crown.md R125, R126: rows constant give `"64:64"`, rows alternating `0,1,0,1,...` give `"63:64"`. -/
def Obligations.CrownOfConstantAndAlternatingRows : Prop :=
  (∀ g : Grid, (∀ r c c', g.cell r c = g.cell r c') →
    crown g = (64, 64) ∧ crownText (crown g).1 (crown g).2 = [0x36, 0x34, 0x3A, 0x36, 0x34]) ∧
  (∀ g : Grid, (∀ r (c : Sector), g.cell r c = decide (c.val % 2 = 1)) →
    crown g = (63, 64) ∧ crownText (crown g).1 (crown g).2 = [0x36, 0x33, 0x3A, 0x36, 0x34])

/-- 43_crown.md R124: `"none"` or the two decimal numbers with a colon between; 3 to 5 bytes for the numbers that
occur. -/
def Obligations.CrownTextForms : Prop :=
  (∀ qty, crownText 0 qty = [0x6E, 0x6F, 0x6E, 0x65]) ∧
  (∀ rank qty, rank ≠ 0 → crownText rank qty = dec rank ++ [0x3A] ++ dec qty) ∧
  crownText 2 1 = [0x32, 0x3A, 0x31] ∧ crownText 64 64 = [0x36, 0x34, 0x3A, 0x36, 0x34] ∧
  (∀ rank qty, 2 ≤ rank → rank ≤ 64 → 1 ≤ qty → qty ≤ 64 →
    3 ≤ (crownText rank qty).length ∧ (crownText rank qty).length ≤ 5)

/-! ## Text and document -/

/-- 44_assemble.md R136: decimal digits only, most significant first, no leading zero, and the value is `n`. -/
def Obligations.DecIsTheNaturalDecimalText : Prop :=
  dec 0 = [0x30] ∧
  ∀ n : Nat, dec n ≠ [] ∧ (∀ b ∈ dec n, 0x30 ≤ b.toNat ∧ b.toNat ≤ 0x39) ∧
    (n ≠ 0 → (dec n).head? ≠ some 0x30) ∧
    (dec n).foldl (fun acc b => 10 * acc + (b.toNat - 0x30)) 0 = n

/-- 44_assemble.md R137: the exact decimal of `s * 5625` thousandths, at least one fraction digit and no trailing
zero where the fraction is not zero, no point where it is. -/
def Obligations.AngleTextsAreExactDecimals : Prop :=
  ∀ s : Sector,
    if s.val * 5625 % 1000 = 0 then angleText s = dec (s.val * 5625 / 1000)
    else ∃ ds : List Nat, ds ≠ [] ∧ ds.length ≤ 3 ∧ (∀ d ∈ ds, d < 10) ∧ ds.getLast? ≠ some 0 ∧
      ds.foldl (fun acc d => 10 * acc + d) 0 * 10 ^ (3 - ds.length) = s.val * 5625 % 1000 ∧
      angleText s = dec (s.val * 5625 / 1000) ++ [0x2E] ++ ds.map fun d => BitVec.ofNat 8 (0x30 + d)

/-- 44_assemble.md R139. -/
def Obligations.HexLinesShowTheSeed : Prop :=
  let digit : Nat → Byte := fun n =>
    if n < 10 then BitVec.ofNat 8 (0x30 + n) else BitVec.ofNat 8 (0x61 + (n - 10))
  ∀ (S : Seed) (j : Fin 4), (hex16 S j).length = 16 ∧ ∀ b : Fin 8,
    (hex16 S j)[2 * b.val]? = some (digit ((S.get ⟨8 * j.val + b.val, by omega⟩).toNat / 16)) ∧
    (hex16 S j)[2 * b.val + 1]? = some (digit ((S.get ⟨8 * j.val + b.val, by omega⟩).toNat % 16))

/-- 44_assemble.md R132 with the fragment ids of 20_memory.md R51: the pieces of a document in their order.
For a store that lacks a fragment, of which the rule does not speak, the statement rests on log 17. -/
def Obligations.DocumentIsTheFixedConcatenation : Prop :=
  ∀ (cfg : Config) (S : Seed) (G : Grid) (F : FragStore),
    let colour : Bool → Bytes := fun b => if b then cfg.tokWhite else cfg.tokBlack
    let sector : Sector → Bytes := fun s =>
      cfg.tokRotA ++ angleText s ++ cfg.tokRotB
        ++ (F.bytes 2 ++ colour (G.cell 0 s) ++ cfg.tokShapeClose)
        ++ (F.bytes 3 ++ colour (G.cell 1 s) ++ cfg.tokShapeClose)
        ++ (F.bytes 4 ++ colour (G.cell 2 s) ++ cfg.tokShapeClose)
        ++ (F.bytes 5 ++ colour (G.cell 3 s) ++ cfg.tokShapeClose)
        ++ cfg.tokRotC
    assemble cfg S G F =
      F.bytes 0 ++ ((List.finRange 64).map sector).flatten
        ++ (F.bytes 6 ++ hex16 S 0 ++ cfg.tokLineClose) ++ (F.bytes 7 ++ hex16 S 1 ++ cfg.tokLineClose)
        ++ (F.bytes 8 ++ hex16 S 2 ++ cfg.tokLineClose) ++ (F.bytes 9 ++ hex16 S 3 ++ cfg.tokLineClose)
        ++ F.bytes 1

/-- 44_assemble.md R142: the length computed in advance is this sum, and it is the document's length when the grid is
the seed's. For a store that lacks a fragment, of which the rule does not speak, the statement rests on log 17. -/
def Obligations.DocumentLengthIsTheSumOfItsPieces : Prop :=
  ∀ (cfg : Config) (S : Seed) (F : FragStore),
    docLength cfg S F =
      F.len 0 + F.len 1 + 64 * (cfg.tokRotA.length + cfg.tokRotB.length + cfg.tokRotC.length) + 364
        + 64 * (F.len 2 + F.len 3 + F.len 4 + F.len 5) + 256 * cfg.tokShapeClose.length
        + (256 - popcount S) * cfg.tokBlack.length + popcount S * cfg.tokWhite.length
        + F.len 6 + F.len 7 + F.len 8 + F.len 9 + 4 * 16 + 4 * cfg.tokLineClose.length ∧
    (assemble cfg S (decodeGrid S) F).length = docLength cfg S F

/-! ## Invariants -/

/-- 10_state.md R34: the invariants hold after reset, whatever the parameters, ports, store and host actions. -/
def Obligations.RegisterInvariantHoldsAtReset : Prop :=
  State.reset.Inv ∧ ∀ cfg v F a h, (State.launch cfg v F a h).Inv

/-- 10_state.md R34: every step keeps them, from every state that meets them. -/
def Obligations.EveryStepKeepsTheRegisterInvariant : Prop :=
  ∀ s t : State, s.Inv → step s = .next t → t.Inv

/-- 10_state.md R34: "Between commands, from reset on" they hold. Of a valid document `State.Inv` says only that it is
the document of some complete store; the last statement of this file ties that store. -/
def Obligations.RegisterInvariantHoldsInEveryRun : Prop := ∀ s : State, s.reached → s.Inv

/-- 10_state.md R31, 20_memory.md R56, R62: after reset, and after every step from a state with this property, the
document memory is in canonical form, holds no offset outside the buffer, and `DOC_LEN` fits. -/
def Obligations.EveryStepKeepsTheDocumentInsideItsBuffer : Prop :=
  State.reset.DocInv ∧ (∀ cfg v F a h, (State.launch cfg v F a h).DocInv) ∧
  ∀ s t : State, s.DocInv → step s = .next t → t.DocInv

/-! ## What is visible -/

/-- 10_state.md R32, R33: what each port shows. A guarded port shows its register, at the bits of the port table, while
its valid flag is `1`, and has no value otherwise. `doc_byte` shows `DOC[doc_addr]` while `DOC_V = 1` and
`doc_addr < DOC_LEN`; in a state that meets R34 it then has a value. -/
def Obligations.PortsHaveAValueExactlyWhenValid : Prop :=
  ∀ s : State,
    (s.ports.status = s.status ∧ s.ports.err = s.err ∧ s.ports.errCmd = s.errCmd ∧ s.ports.docLen = s.docLen ∧
      s.ports.fault.toNat = s.fault.toNat ∧ s.ports.cmdReady = 1) ∧
    (s.ports.seedOut.isSome = s.seedV ∧
      ∀ v, s.ports.seedOut = some v → ∀ i : Fin 32, v.extractLsb' (248 - 8 * i.val) 8 = s.seed.get i) ∧
    (s.ports.gridOut.isSome = s.gridV ∧
      ∀ v, s.ports.gridOut = some v → ∀ r (c : Sector), v.getLsbD (255 - (64 * r.val + c.val)) = s.grid.cell r c) ∧
    (s.ports.evenLabel.isSome = s.evenV ∧ ∀ v, s.ports.evenLabel = some v →
      v.extractLsb' 16 8 = s.evenLabel.get 0 ∧ v.extractLsb' 8 8 = s.evenLabel.get 1 ∧
      v.extractLsb' 0 8 = s.evenLabel.get 2) ∧
    s.ports.evenScore = (if s.evenV = true then some s.evenScore else none) ∧
    s.ports.passages = (if s.passV = true then some s.passages else none) ∧
    s.ports.crownRank = (if s.crownV = true then some s.crownRank else none) ∧
    s.ports.crownQty = (if s.crownV = true then some s.crownQty else none) ∧
    s.ports.crownTxtLen = (if s.crownV = true then some s.crownTxtLen else none) ∧
    (∀ k : Fin 5, s.ports.crownTxt.get k = s.crownTxtAt k ∧
      s.crownTxtAt k = if s.crownV = true ∧ k.val < s.crownTxtLen.toNat then some (s.crownTxt.get k) else none) ∧
    s.ports.docByte = (if s.docV = true ∧ s.docAddr.toNat < s.docLen.toNat then s.doc.read s.docAddr.toNat else none) ∧
    (s.Inv → (s.ports.docByte.isSome = true ↔ s.docV = true ∧ s.docAddr.toNat < s.docLen.toNat))

/-- 10_state.md R33, R36: what is unspecified is never read. Two states that meet R34 and differ only there show the
same ports and step to outcomes that differ only there. -/
def Obligations.UnspecifiedContentsAreNeverRead : Prop :=
  ∀ s t : State, s.Inv → s.SameVisible t → s.ports = t.ports ∧ sameOutcome (step s) (step t)

/-! ## The store a document was made from -/

/-- 10_state.md R34 whole, its document line with the store it names: from reset on, in every run, the invariants hold
and a valid document is that of the current seed and grid and of the store at the last ASM or QUERY. -/
def Obligations.ValidDocumentIsOfTheStoreAtItsAsm : Prop :=
  (∀ s : State, s.reached ↔ ∃ F, State.RunWith F s) ∧
  ∀ (F : Option FragStore) (s : State), State.RunWith F s → s.Inv ∧
    (s.docV = true → ∃ G : FragStore, F = some G ∧ complete G ∧
      s.docLen.toNat = (assemble s.cfg s.seed s.grid G).length ∧
      ∀ k, k < s.docLen.toNat → s.doc.read k = (assemble s.cfg s.seed s.grid G)[k]?)
end

