-- ==== Sys2Proof/Laws/Memory.lean ====
section
/-! SUPPORT. Laws/Memory.lean: the laws of the document memory: read after write, the canonical form, and that a
run stored from offset 0 is one write per byte at rising offsets (spec/20_memory.md R56). -/

namespace Sys2Proof.Machine

/-- The canonical form as a pairwise statement. -/
theorem Memory.wf_iff (m : Memory) : m.wf = true ↔ m.Pairwise fun x y => x.1 < y.1 := by
  rw [← List.isChain_iff_pairwise]
  induction m with
  | nil => simp [Memory.wf]
  | cons x rest ih =>
    cases rest with
    | nil => simp [Memory.wf]
    | cons y rest => simp [Memory.wf, List.isChain_cons_cons, ih]

theorem Memory.wf_nil : Memory.wf [] = true := rfl

theorem Memory.wf_cons {x : Host.Cell} {m : Memory} :
    Memory.wf (x :: m) = true ↔ (∀ y ∈ m, x.1 < y.1) ∧ m.wf = true := by
  simp only [Memory.wf_iff, List.pairwise_cons]

@[simp] theorem Memory.read_nil (k : Nat) : Memory.read [] k = none := rfl

theorem Memory.read_cons (x : Host.Cell) (m : Memory) (k : Nat) :
    Memory.read (x :: m) k = if x.1 = k then some x.2 else m.read k := rfl

/-- Below every listed offset nothing is listed. -/
theorem Memory.read_eq_none {m : Memory} {k : Nat} (h : ∀ x ∈ m, x.1 ≠ k) : m.read k = none := by
  induction m with
  | nil => rfl
  | cons x m ih =>
    rw [Memory.read_cons, if_neg (h x (by simp))]
    exact ih fun y hy => h y (by simp [hy])

theorem Memory.read_append (m m' : Memory) (k : Nat) :
    Memory.read (m ++ m') k = (m.read k).or (m'.read k) := by
  induction m with
  | nil => simp
  | cons x m ih =>
    simp only [List.cons_append, Memory.read_cons]
    split <;> simp [*]

/-- Equal memories are equal data: two canonical memories with the same bytes are the same list. -/
theorem Memory.eq_of_read_eq {m m' : Memory} (h : m.wf = true) (h' : m'.wf = true)
    (heq : ∀ k, m.read k = m'.read k) : m = m' := by
  induction m generalizing m' with
  | nil =>
    cases m' with
    | nil => rfl
    | cons y _ => simpa [Memory.read_cons] using heq y.1
  | cons x m ih =>
    cases m' with
    | nil => simpa [Memory.read_cons] using heq x.1
    | cons y m' =>
      obtain ⟨hx, hm⟩ := Memory.wf_cons.1 h
      obtain ⟨hy, hm'⟩ := Memory.wf_cons.1 h'
      have hxy : x.1 = y.1 := by
        rcases Nat.lt_trichotomy x.1 y.1 with hlt | he | hlt
        · have hk := heq x.1
          rw [Memory.read_cons, if_pos rfl, Memory.read_cons, if_neg (by omega),
            Memory.read_eq_none fun z hz => by have := hy z hz; omega] at hk
          cases hk
        · exact he
        · have hk := heq y.1
          rw [Memory.read_cons, if_neg (by omega), Memory.read_cons, if_pos rfl,
            Memory.read_eq_none fun z hz => by have := hx z hz; omega] at hk
          cases hk
      have hb : x.2 = y.2 := by simpa [Memory.read_cons, hxy] using heq y.1
      have hrest : m = m' := by
        refine ih hm hm' fun k => ?_
        by_cases hk : x.1 = k
        · rw [Memory.read_eq_none fun z hz => by have := hx z hz; omega,
            Memory.read_eq_none fun z hz => by have := hy z hz; omega]
        · have := heq k
          rwa [Memory.read_cons, Memory.read_cons, if_neg hk, if_neg (hxy ▸ hk)] at this
      rw [hrest, show x = y from Prod.ext hxy hb]

/-! ## One byte -/

theorem Memory.read_write_same (m : Memory) (k : Nat) (v : Byte) : (m.write k v).read k = some v := by
  induction m with
  | nil => simp [Memory.write, Memory.read_cons]
  | cons x m ih =>
    simp only [Memory.write]
    split
    · simp [Memory.read_cons]
    · split
      · simp [Memory.read_cons]
      · rw [Memory.read_cons, if_neg (by omega), ih]

theorem Memory.read_write_other (m : Memory) {k j : Nat} (v : Byte) (h : j ≠ k) :
    (m.write k v).read j = m.read j := by
  induction m with
  | nil => simp [Memory.write, Memory.read_cons, h.symm]
  | cons x m ih =>
    simp only [Memory.write]
    split
    · rw [Memory.read_cons, if_neg h.symm]
    · split
      · rename_i _ hx
        rw [Memory.read_cons, if_neg h.symm, Memory.read_cons, if_neg (by omega)]
      · rw [Memory.read_cons, Memory.read_cons, ih]

theorem Memory.mem_write {m : Memory} {k : Nat} {v : Byte} {x : Host.Cell} (h : x ∈ m.write k v) :
    x.1 = k ∨ x ∈ m := by
  induction m with
  | nil => simp only [Memory.write, List.mem_singleton] at h; exact .inl (by rw [h])
  | cons y m ih =>
    simp only [Memory.write] at h
    split at h
    · rcases List.mem_cons.1 h with rfl | h
      · exact .inl rfl
      · exact .inr h
    · split at h
      · rcases List.mem_cons.1 h with rfl | h
        · exact .inl rfl
        · exact .inr (List.mem_cons_of_mem _ h)
      · rcases List.mem_cons.1 h with rfl | h
        · exact .inr (by simp)
        · exact (ih h).imp_right (List.mem_cons_of_mem _)

/-- A write keeps the canonical form. -/
theorem Memory.write_wf {m : Memory} (k : Nat) (v : Byte) (h : m.wf = true) : (m.write k v).wf = true := by
  induction m with
  | nil => rfl
  | cons x m ih =>
    obtain ⟨hx, hm⟩ := Memory.wf_cons.1 h
    simp only [Memory.write]
    split
    · exact Memory.wf_cons.2 ⟨by
        intro y hy
        rcases List.mem_cons.1 hy with rfl | hy
        · assumption
        · have := hx y hy; simp only at *; omega, h⟩
    · split
      · rename_i _ hk
        exact Memory.wf_cons.2 ⟨fun y hy => hk ▸ hx y hy, hm⟩
      · refine Memory.wf_cons.2 ⟨fun y hy => ?_, ih hm⟩
        rcases Memory.mem_write hy with h' | h'
        · simp only; omega
        · exact hx y h'

/-! ## A run of bytes from offset 0 -/

theorem Memory.mem_run {k : Nat} {bs : Bytes} {x : Host.Cell} (h : x ∈ Memory.run k bs) :
    k ≤ x.1 ∧ x.1 < k + bs.length := by
  induction bs generalizing k with
  | nil => simp [Memory.run] at h
  | cons b bs ih =>
    rcases List.mem_cons.1 h with rfl | h
    · simp
    · have := ih h
      simp only [List.length_cons]
      omega

theorem Memory.run_wf (k : Nat) (bs : Bytes) : (Memory.run k bs).wf = true := by
  induction bs generalizing k with
  | nil => rfl
  | cons b bs ih =>
    exact Memory.wf_cons.2 ⟨fun y hy => by have := Memory.mem_run hy; simp only; omega, ih _⟩

theorem Memory.read_run (k : Nat) (bs : Bytes) (j : Nat) : (Memory.run k bs).read (k + j) = bs[j]? := by
  induction bs generalizing k j with
  | nil => simp [Memory.run]
  | cons b bs ih =>
    cases j with
    | zero => simp [Memory.run, Memory.read_cons]
    | succ j =>
      rw [Memory.run, Memory.read_cons, if_neg (by simp only; omega),
        show k + (j + 1) = k + 1 + j by omega, ih]
      simp

theorem Memory.read_filter_ge (m : Memory) {n k : Nat} (h : n ≤ k) :
    Memory.read (m.filter fun x => decide (n ≤ x.1)) k = m.read k := by
  induction m with
  | nil => rfl
  | cons x m ih =>
    by_cases hx : n ≤ x.1
    · rw [List.filter_cons_of_pos (by simpa using hx), Memory.read_cons, Memory.read_cons, ih]
    · rw [List.filter_cons_of_neg (by simpa using hx), Memory.read_cons, ih, if_neg (by omega)]

/-- The bytes stored are read back. -/
theorem Memory.read_storeFromZero_lt (m : Memory) (bs : Bytes) {k : Nat} (h : k < bs.length) :
    (m.storeFromZero bs).read k = bs[k]? := by
  have hr := Memory.read_run 0 bs k
  rw [Nat.zero_add] at hr
  rw [Memory.storeFromZero, Memory.read_append, hr, List.getElem?_eq_getElem h]
  rfl

/-- Every other byte reads as before. -/
theorem Memory.read_storeFromZero_ge (m : Memory) (bs : Bytes) {k : Nat} (h : bs.length ≤ k) :
    (m.storeFromZero bs).read k = m.read k := by
  have hr := Memory.read_run 0 bs k
  rw [Nat.zero_add] at hr
  rw [Memory.storeFromZero, Memory.read_append, hr, List.getElem?_eq_none h, Option.none_or,
    Memory.read_filter_ge m h]

theorem Memory.mem_storeFromZero {m : Memory} {bs : Bytes} {x : Host.Cell} (h : x ∈ m.storeFromZero bs) :
    x.1 < bs.length ∨ x ∈ m := by
  rcases List.mem_append.1 h with h | h
  · have := Memory.mem_run h
    exact .inl (by omega)
  · exact .inr (List.mem_filter.1 h).1

/-- Storing a run keeps the canonical form. -/
theorem Memory.storeFromZero_wf {m : Memory} (bs : Bytes) (h : m.wf = true) :
    (m.storeFromZero bs).wf = true := by
  rw [Memory.wf_iff] at h ⊢
  refine List.pairwise_append.2 ⟨(Memory.wf_iff _).1 (Memory.run_wf 0 bs), h.filter _, fun x hx y hy => ?_⟩
  have h1 := Memory.mem_run hx
  have h2 : bs.length ≤ y.1 := by simpa using (List.mem_filter.1 hy).2
  omega

/-- The document writes of R56: one `Memory.write` per byte, at offsets `k`, `k + 1`, ... -/
def Memory.writeEach (m : Memory) (k : Nat) : Bytes → Memory
  | [] => m
  | b :: bs => (m.write k b).writeEach (k + 1) bs

theorem Memory.writeEach_wf {m : Memory} (k : Nat) (bs : Bytes) (h : m.wf = true) :
    (m.writeEach k bs).wf = true := by
  induction bs generalizing m k with
  | nil => exact h
  | cons b bs ih => exact ih _ (Memory.write_wf k b h)

theorem Memory.read_writeEach (m : Memory) (k : Nat) (bs : Bytes) (j : Nat) :
    (m.writeEach k bs).read j = if k ≤ j ∧ j < k + bs.length then bs[j - k]? else m.read j := by
  induction bs generalizing m k with
  | nil => rw [Memory.writeEach, if_neg (by simp only [List.length_nil]; omega)]
  | cons b bs ih =>
    rw [Memory.writeEach, ih, List.length_cons]
    by_cases h : j = k
    · subst h
      rw [if_neg (by omega), if_pos (by omega), Memory.read_write_same]
      simp
    · rw [Memory.read_write_other m b h]
      by_cases hj : k + 1 ≤ j ∧ j < k + 1 + bs.length
      · rw [if_pos hj, if_pos (by omega), show j - k = (j - (k + 1)) + 1 by omega]
        simp
      · rw [if_neg hj, if_neg (by omega)]

/-- A run stored from offset 0 is one write per byte "at strictly increasing offsets from `0`" (R56). -/
theorem Memory.storeFromZero_eq_writeEach {m : Memory} (bs : Bytes) (h : m.wf = true) :
    m.storeFromZero bs = m.writeEach 0 bs := by
  refine Memory.eq_of_read_eq (Memory.storeFromZero_wf bs h) (Memory.writeEach_wf 0 bs h) fun k => ?_
  rw [Memory.read_writeEach]
  by_cases hk : k < bs.length
  · rw [Memory.read_storeFromZero_lt m bs hk, if_pos (by omega), Nat.sub_zero]
  · rw [Memory.read_storeFromZero_ge m bs (by omega), if_neg (by omega)]

end Sys2Proof.Machine
end

