-- ==== Sys2Proof/Laws/State.lean ====
section
/-! SUPPORT. Laws/State.lean: for each update of the state, what every field is after it, so that no proof unfolds a
record update. -/

namespace Sys2Proof.Machine

variable (s : State)

/-! The fault entry. -/

@[simp] theorem State.raise_seed (w : Byte) (k : FaultKind) : (s.raise w k).seed = s.seed := by simp only [State.raise]
@[simp] theorem State.raise_grid (w : Byte) (k : FaultKind) : (s.raise w k).grid = s.grid := by simp only [State.raise]
@[simp] theorem State.raise_evenScore (w : Byte) (k : FaultKind) : (s.raise w k).evenScore = s.evenScore :=
    by simp only [State.raise]
@[simp] theorem State.raise_evenLabel (w : Byte) (k : FaultKind) : (s.raise w k).evenLabel = s.evenLabel :=
    by simp only [State.raise]
@[simp] theorem State.raise_passages (w : Byte) (k : FaultKind) : (s.raise w k).passages = s.passages :=
    by simp only [State.raise]
@[simp] theorem State.raise_crownRank (w : Byte) (k : FaultKind) : (s.raise w k).crownRank = s.crownRank :=
    by simp only [State.raise]
@[simp] theorem State.raise_crownQty (w : Byte) (k : FaultKind) : (s.raise w k).crownQty = s.crownQty :=
    by simp only [State.raise]
@[simp] theorem State.raise_crownTxt (w : Byte) (k : FaultKind) : (s.raise w k).crownTxt = s.crownTxt :=
    by simp only [State.raise]
@[simp] theorem State.raise_crownTxtLen (w : Byte) (k : FaultKind) : (s.raise w k).crownTxtLen = s.crownTxtLen :=
    by simp only [State.raise]
@[simp] theorem State.raise_doc (w : Byte) (k : FaultKind) : (s.raise w k).doc = s.doc := by simp only [State.raise]
@[simp] theorem State.raise_docLen (w : Byte) (k : FaultKind) : (s.raise w k).docLen = s.docLen :=
    by simp only [State.raise]
@[simp] theorem State.raise_seedV (w : Byte) (k : FaultKind) : (s.raise w k).seedV = s.seedV :=
    by simp only [State.raise]
@[simp] theorem State.raise_gridV (w : Byte) (k : FaultKind) : (s.raise w k).gridV = s.gridV :=
    by simp only [State.raise]
@[simp] theorem State.raise_evenV (w : Byte) (k : FaultKind) : (s.raise w k).evenV = s.evenV :=
    by simp only [State.raise]
@[simp] theorem State.raise_passV (w : Byte) (k : FaultKind) : (s.raise w k).passV = s.passV :=
    by simp only [State.raise]
@[simp] theorem State.raise_crownV (w : Byte) (k : FaultKind) : (s.raise w k).crownV = s.crownV :=
    by simp only [State.raise]
@[simp] theorem State.raise_docV (w : Byte) (k : FaultKind) : (s.raise w k).docV = s.docV := by simp only [State.raise]
@[simp] theorem State.raise_fault (w : Byte) (k : FaultKind) : (s.raise w k).fault = true := rfl
@[simp] theorem State.raise_errCode (w : Byte) (k : FaultKind) : (s.raise w k).errCode = faultCode k := rfl
@[simp] theorem State.raise_errInfo (w : Byte) (k : FaultKind) : (s.raise w k).errInfo = faultInfo k := rfl
@[simp] theorem State.raise_errCmd (w : Byte) (k : FaultKind) : (s.raise w k).errCmd = w := rfl
@[simp] theorem State.raise_cfg (w : Byte) (k : FaultKind) : (s.raise w k).cfg = s.cfg := by simp only [State.raise]
@[simp] theorem State.raise_seedIn (w : Byte) (k : FaultKind) : (s.raise w k).seedIn = s.seedIn :=
    by simp only [State.raise]
@[simp] theorem State.raise_frags (w : Byte) (k : FaultKind) : (s.raise w k).frags = s.frags :=
    by simp only [State.raise]
@[simp] theorem State.raise_docAddr (w : Byte) (k : FaultKind) : (s.raise w k).docAddr = s.docAddr :=
    by simp only [State.raise]
@[simp] theorem State.raise_host (w : Byte) (k : FaultKind) : (s.raise w k).host = s.host := by simp only [State.raise]
@[simp] theorem State.raise_draws (w : Byte) (k : FaultKind) : (s.raise w k).draws = s.draws :=
    by simp only [State.raise]

/-! Clearing the derived flags. -/

@[simp] theorem State.clearDerived_seed : (s.clearDerived).seed = s.seed := by simp only [State.clearDerived]
@[simp] theorem State.clearDerived_grid : (s.clearDerived).grid = s.grid := by simp only [State.clearDerived]
@[simp] theorem State.clearDerived_evenScore : (s.clearDerived).evenScore = s.evenScore :=
    by simp only [State.clearDerived]
@[simp] theorem State.clearDerived_evenLabel : (s.clearDerived).evenLabel = s.evenLabel :=
    by simp only [State.clearDerived]
@[simp] theorem State.clearDerived_passages : (s.clearDerived).passages = s.passages :=
    by simp only [State.clearDerived]
@[simp] theorem State.clearDerived_crownRank : (s.clearDerived).crownRank = s.crownRank :=
    by simp only [State.clearDerived]
@[simp] theorem State.clearDerived_crownQty : (s.clearDerived).crownQty = s.crownQty :=
    by simp only [State.clearDerived]
@[simp] theorem State.clearDerived_crownTxt : (s.clearDerived).crownTxt = s.crownTxt :=
    by simp only [State.clearDerived]
@[simp] theorem State.clearDerived_crownTxtLen : (s.clearDerived).crownTxtLen = s.crownTxtLen :=
    by simp only [State.clearDerived]
@[simp] theorem State.clearDerived_doc : (s.clearDerived).doc = s.doc := by simp only [State.clearDerived]
@[simp] theorem State.clearDerived_docLen : (s.clearDerived).docLen = 0 := rfl
@[simp] theorem State.clearDerived_seedV : (s.clearDerived).seedV = s.seedV := by simp only [State.clearDerived]
@[simp] theorem State.clearDerived_gridV : (s.clearDerived).gridV = false := rfl
@[simp] theorem State.clearDerived_evenV : (s.clearDerived).evenV = false := rfl
@[simp] theorem State.clearDerived_passV : (s.clearDerived).passV = false := rfl
@[simp] theorem State.clearDerived_crownV : (s.clearDerived).crownV = false := rfl
@[simp] theorem State.clearDerived_docV : (s.clearDerived).docV = false := rfl
@[simp] theorem State.clearDerived_fault : (s.clearDerived).fault = s.fault := by simp only [State.clearDerived]
@[simp] theorem State.clearDerived_errCode : (s.clearDerived).errCode = s.errCode := by simp only [State.clearDerived]
@[simp] theorem State.clearDerived_errInfo : (s.clearDerived).errInfo = s.errInfo := by simp only [State.clearDerived]
@[simp] theorem State.clearDerived_errCmd : (s.clearDerived).errCmd = s.errCmd := by simp only [State.clearDerived]
@[simp] theorem State.clearDerived_cfg : (s.clearDerived).cfg = s.cfg := by simp only [State.clearDerived]
@[simp] theorem State.clearDerived_seedIn : (s.clearDerived).seedIn = s.seedIn := by simp only [State.clearDerived]
@[simp] theorem State.clearDerived_frags : (s.clearDerived).frags = s.frags := by simp only [State.clearDerived]
@[simp] theorem State.clearDerived_docAddr : (s.clearDerived).docAddr = s.docAddr := by simp only [State.clearDerived]
@[simp] theorem State.clearDerived_host : (s.clearDerived).host = s.host := by simp only [State.clearDerived]
@[simp] theorem State.clearDerived_draws : (s.clearDerived).draws = s.draws := by simp only [State.clearDerived]

/-! Withdrawing the document. -/

@[simp] theorem State.withdrawDoc_seed : (s.withdrawDoc).seed = s.seed := by simp only [State.withdrawDoc]
@[simp] theorem State.withdrawDoc_grid : (s.withdrawDoc).grid = s.grid := by simp only [State.withdrawDoc]
@[simp] theorem State.withdrawDoc_evenScore : (s.withdrawDoc).evenScore = s.evenScore :=
    by simp only [State.withdrawDoc]
@[simp] theorem State.withdrawDoc_evenLabel : (s.withdrawDoc).evenLabel = s.evenLabel :=
    by simp only [State.withdrawDoc]
@[simp] theorem State.withdrawDoc_passages : (s.withdrawDoc).passages = s.passages := by simp only [State.withdrawDoc]
@[simp] theorem State.withdrawDoc_crownRank : (s.withdrawDoc).crownRank = s.crownRank :=
    by simp only [State.withdrawDoc]
@[simp] theorem State.withdrawDoc_crownQty : (s.withdrawDoc).crownQty = s.crownQty := by simp only [State.withdrawDoc]
@[simp] theorem State.withdrawDoc_crownTxt : (s.withdrawDoc).crownTxt = s.crownTxt := by simp only [State.withdrawDoc]
@[simp] theorem State.withdrawDoc_crownTxtLen : (s.withdrawDoc).crownTxtLen = s.crownTxtLen :=
    by simp only [State.withdrawDoc]
@[simp] theorem State.withdrawDoc_doc : (s.withdrawDoc).doc = s.doc := by simp only [State.withdrawDoc]
@[simp] theorem State.withdrawDoc_docLen : (s.withdrawDoc).docLen = 0 := rfl
@[simp] theorem State.withdrawDoc_seedV : (s.withdrawDoc).seedV = s.seedV := by simp only [State.withdrawDoc]
@[simp] theorem State.withdrawDoc_gridV : (s.withdrawDoc).gridV = s.gridV := by simp only [State.withdrawDoc]
@[simp] theorem State.withdrawDoc_evenV : (s.withdrawDoc).evenV = s.evenV := by simp only [State.withdrawDoc]
@[simp] theorem State.withdrawDoc_passV : (s.withdrawDoc).passV = s.passV := by simp only [State.withdrawDoc]
@[simp] theorem State.withdrawDoc_crownV : (s.withdrawDoc).crownV = s.crownV := by simp only [State.withdrawDoc]
@[simp] theorem State.withdrawDoc_docV : (s.withdrawDoc).docV = false := rfl
@[simp] theorem State.withdrawDoc_fault : (s.withdrawDoc).fault = s.fault := by simp only [State.withdrawDoc]
@[simp] theorem State.withdrawDoc_errCode : (s.withdrawDoc).errCode = s.errCode := by simp only [State.withdrawDoc]
@[simp] theorem State.withdrawDoc_errInfo : (s.withdrawDoc).errInfo = s.errInfo := by simp only [State.withdrawDoc]
@[simp] theorem State.withdrawDoc_errCmd : (s.withdrawDoc).errCmd = s.errCmd := by simp only [State.withdrawDoc]
@[simp] theorem State.withdrawDoc_cfg : (s.withdrawDoc).cfg = s.cfg := by simp only [State.withdrawDoc]
@[simp] theorem State.withdrawDoc_seedIn : (s.withdrawDoc).seedIn = s.seedIn := by simp only [State.withdrawDoc]
@[simp] theorem State.withdrawDoc_frags : (s.withdrawDoc).frags = s.frags := by simp only [State.withdrawDoc]
@[simp] theorem State.withdrawDoc_docAddr : (s.withdrawDoc).docAddr = s.docAddr := by simp only [State.withdrawDoc]
@[simp] theorem State.withdrawDoc_host : (s.withdrawDoc).host = s.host := by simp only [State.withdrawDoc]
@[simp] theorem State.withdrawDoc_draws : (s.withdrawDoc).draws = s.draws := by simp only [State.withdrawDoc]

/-! The body of LDSEED. -/

@[simp] theorem State.loadSeed_seed : (s.loadSeed).seed = seedOfPort s.seedIn := rfl
@[simp] theorem State.loadSeed_grid : (s.loadSeed).grid = s.grid := by simp only [State.loadSeed, State.clearDerived]
@[simp] theorem State.loadSeed_evenScore : (s.loadSeed).evenScore = s.evenScore :=
    by simp only [State.loadSeed, State.clearDerived]
@[simp] theorem State.loadSeed_evenLabel : (s.loadSeed).evenLabel = s.evenLabel :=
    by simp only [State.loadSeed, State.clearDerived]
@[simp] theorem State.loadSeed_passages : (s.loadSeed).passages = s.passages :=
    by simp only [State.loadSeed, State.clearDerived]
@[simp] theorem State.loadSeed_crownRank : (s.loadSeed).crownRank = s.crownRank :=
    by simp only [State.loadSeed, State.clearDerived]
@[simp] theorem State.loadSeed_crownQty : (s.loadSeed).crownQty = s.crownQty :=
    by simp only [State.loadSeed, State.clearDerived]
@[simp] theorem State.loadSeed_crownTxt : (s.loadSeed).crownTxt = s.crownTxt :=
    by simp only [State.loadSeed, State.clearDerived]
@[simp] theorem State.loadSeed_crownTxtLen : (s.loadSeed).crownTxtLen = s.crownTxtLen :=
    by simp only [State.loadSeed, State.clearDerived]
@[simp] theorem State.loadSeed_doc : (s.loadSeed).doc = s.doc := by simp only [State.loadSeed, State.clearDerived]
@[simp] theorem State.loadSeed_docLen : (s.loadSeed).docLen = 0 := rfl
@[simp] theorem State.loadSeed_seedV : (s.loadSeed).seedV = true := rfl
@[simp] theorem State.loadSeed_gridV : (s.loadSeed).gridV = false := rfl
@[simp] theorem State.loadSeed_evenV : (s.loadSeed).evenV = false := rfl
@[simp] theorem State.loadSeed_passV : (s.loadSeed).passV = false := rfl
@[simp] theorem State.loadSeed_crownV : (s.loadSeed).crownV = false := rfl
@[simp] theorem State.loadSeed_docV : (s.loadSeed).docV = false := rfl
@[simp] theorem State.loadSeed_fault : (s.loadSeed).fault = s.fault := by simp only [State.loadSeed, State.clearDerived]
@[simp] theorem State.loadSeed_errCode : (s.loadSeed).errCode = s.errCode :=
    by simp only [State.loadSeed, State.clearDerived]
@[simp] theorem State.loadSeed_errInfo : (s.loadSeed).errInfo = s.errInfo :=
    by simp only [State.loadSeed, State.clearDerived]
@[simp] theorem State.loadSeed_errCmd : (s.loadSeed).errCmd = s.errCmd :=
    by simp only [State.loadSeed, State.clearDerived]
@[simp] theorem State.loadSeed_cfg : (s.loadSeed).cfg = s.cfg := by simp only [State.loadSeed, State.clearDerived]
@[simp] theorem State.loadSeed_seedIn : (s.loadSeed).seedIn = s.seedIn :=
    by simp only [State.loadSeed, State.clearDerived]
@[simp] theorem State.loadSeed_frags : (s.loadSeed).frags = s.frags := by simp only [State.loadSeed, State.clearDerived]
@[simp] theorem State.loadSeed_docAddr : (s.loadSeed).docAddr = s.docAddr :=
    by simp only [State.loadSeed, State.clearDerived]
@[simp] theorem State.loadSeed_host : (s.loadSeed).host = s.host := by simp only [State.loadSeed, State.clearDerived]
@[simp] theorem State.loadSeed_draws : (s.loadSeed).draws = s.draws := by simp only [State.loadSeed, State.clearDerived]

/-! The writes of DECODE. -/

@[simp] theorem State.writeGrid_seed : (s.writeGrid).seed = s.seed := by simp only [State.writeGrid]
@[simp] theorem State.writeGrid_grid : (s.writeGrid).grid = decodeGrid s.seed := rfl
@[simp] theorem State.writeGrid_evenScore : (s.writeGrid).evenScore = s.evenScore := by simp only [State.writeGrid]
@[simp] theorem State.writeGrid_evenLabel : (s.writeGrid).evenLabel = s.evenLabel := by simp only [State.writeGrid]
@[simp] theorem State.writeGrid_passages : (s.writeGrid).passages = s.passages := by simp only [State.writeGrid]
@[simp] theorem State.writeGrid_crownRank : (s.writeGrid).crownRank = s.crownRank := by simp only [State.writeGrid]
@[simp] theorem State.writeGrid_crownQty : (s.writeGrid).crownQty = s.crownQty := by simp only [State.writeGrid]
@[simp] theorem State.writeGrid_crownTxt : (s.writeGrid).crownTxt = s.crownTxt := by simp only [State.writeGrid]
@[simp] theorem State.writeGrid_crownTxtLen : (s.writeGrid).crownTxtLen = s.crownTxtLen :=
    by simp only [State.writeGrid]
@[simp] theorem State.writeGrid_doc : (s.writeGrid).doc = s.doc := by simp only [State.writeGrid]
@[simp] theorem State.writeGrid_docLen : (s.writeGrid).docLen = s.docLen := by simp only [State.writeGrid]
@[simp] theorem State.writeGrid_seedV : (s.writeGrid).seedV = s.seedV := by simp only [State.writeGrid]
@[simp] theorem State.writeGrid_gridV : (s.writeGrid).gridV = true := rfl
@[simp] theorem State.writeGrid_evenV : (s.writeGrid).evenV = s.evenV := by simp only [State.writeGrid]
@[simp] theorem State.writeGrid_passV : (s.writeGrid).passV = s.passV := by simp only [State.writeGrid]
@[simp] theorem State.writeGrid_crownV : (s.writeGrid).crownV = s.crownV := by simp only [State.writeGrid]
@[simp] theorem State.writeGrid_docV : (s.writeGrid).docV = s.docV := by simp only [State.writeGrid]
@[simp] theorem State.writeGrid_fault : (s.writeGrid).fault = s.fault := by simp only [State.writeGrid]
@[simp] theorem State.writeGrid_errCode : (s.writeGrid).errCode = s.errCode := by simp only [State.writeGrid]
@[simp] theorem State.writeGrid_errInfo : (s.writeGrid).errInfo = s.errInfo := by simp only [State.writeGrid]
@[simp] theorem State.writeGrid_errCmd : (s.writeGrid).errCmd = s.errCmd := by simp only [State.writeGrid]
@[simp] theorem State.writeGrid_cfg : (s.writeGrid).cfg = s.cfg := by simp only [State.writeGrid]
@[simp] theorem State.writeGrid_seedIn : (s.writeGrid).seedIn = s.seedIn := by simp only [State.writeGrid]
@[simp] theorem State.writeGrid_frags : (s.writeGrid).frags = s.frags := by simp only [State.writeGrid]
@[simp] theorem State.writeGrid_docAddr : (s.writeGrid).docAddr = s.docAddr := by simp only [State.writeGrid]
@[simp] theorem State.writeGrid_host : (s.writeGrid).host = s.host := by simp only [State.writeGrid]
@[simp] theorem State.writeGrid_draws : (s.writeGrid).draws = s.draws := by simp only [State.writeGrid]

/-! The writes of EVEN. -/

@[simp] theorem State.writeEven_seed : (s.writeEven).seed = s.seed := by simp only [State.writeEven]
@[simp] theorem State.writeEven_grid : (s.writeEven).grid = s.grid := by simp only [State.writeEven]
@[simp] theorem State.writeEven_evenScore : (s.writeEven).evenScore = BitVec.ofNat 8 (evenness s.seed).1 := rfl
@[simp] theorem State.writeEven_evenLabel : (s.writeEven).evenLabel = (evenness s.seed).2 := rfl
@[simp] theorem State.writeEven_passages : (s.writeEven).passages = s.passages := by simp only [State.writeEven]
@[simp] theorem State.writeEven_crownRank : (s.writeEven).crownRank = s.crownRank := by simp only [State.writeEven]
@[simp] theorem State.writeEven_crownQty : (s.writeEven).crownQty = s.crownQty := by simp only [State.writeEven]
@[simp] theorem State.writeEven_crownTxt : (s.writeEven).crownTxt = s.crownTxt := by simp only [State.writeEven]
@[simp] theorem State.writeEven_crownTxtLen : (s.writeEven).crownTxtLen = s.crownTxtLen :=
    by simp only [State.writeEven]
@[simp] theorem State.writeEven_doc : (s.writeEven).doc = s.doc := by simp only [State.writeEven]
@[simp] theorem State.writeEven_docLen : (s.writeEven).docLen = s.docLen := by simp only [State.writeEven]
@[simp] theorem State.writeEven_seedV : (s.writeEven).seedV = s.seedV := by simp only [State.writeEven]
@[simp] theorem State.writeEven_gridV : (s.writeEven).gridV = s.gridV := by simp only [State.writeEven]
@[simp] theorem State.writeEven_evenV : (s.writeEven).evenV = true := rfl
@[simp] theorem State.writeEven_passV : (s.writeEven).passV = s.passV := by simp only [State.writeEven]
@[simp] theorem State.writeEven_crownV : (s.writeEven).crownV = s.crownV := by simp only [State.writeEven]
@[simp] theorem State.writeEven_docV : (s.writeEven).docV = s.docV := by simp only [State.writeEven]
@[simp] theorem State.writeEven_fault : (s.writeEven).fault = s.fault := by simp only [State.writeEven]
@[simp] theorem State.writeEven_errCode : (s.writeEven).errCode = s.errCode := by simp only [State.writeEven]
@[simp] theorem State.writeEven_errInfo : (s.writeEven).errInfo = s.errInfo := by simp only [State.writeEven]
@[simp] theorem State.writeEven_errCmd : (s.writeEven).errCmd = s.errCmd := by simp only [State.writeEven]
@[simp] theorem State.writeEven_cfg : (s.writeEven).cfg = s.cfg := by simp only [State.writeEven]
@[simp] theorem State.writeEven_seedIn : (s.writeEven).seedIn = s.seedIn := by simp only [State.writeEven]
@[simp] theorem State.writeEven_frags : (s.writeEven).frags = s.frags := by simp only [State.writeEven]
@[simp] theorem State.writeEven_docAddr : (s.writeEven).docAddr = s.docAddr := by simp only [State.writeEven]
@[simp] theorem State.writeEven_host : (s.writeEven).host = s.host := by simp only [State.writeEven]
@[simp] theorem State.writeEven_draws : (s.writeEven).draws = s.draws := by simp only [State.writeEven]

/-! The writes of PASS. -/

@[simp] theorem State.writePassages_seed : (s.writePassages).seed = s.seed := by simp only [State.writePassages]
@[simp] theorem State.writePassages_grid : (s.writePassages).grid = s.grid := by simp only [State.writePassages]
@[simp] theorem State.writePassages_evenScore : (s.writePassages).evenScore = s.evenScore :=
    by simp only [State.writePassages]
@[simp] theorem State.writePassages_evenLabel : (s.writePassages).evenLabel = s.evenLabel :=
    by simp only [State.writePassages]
@[simp] theorem State.writePassages_passages : (s.writePassages).passages = BitVec.ofNat 8 (countPassages s.grid) := rfl
@[simp] theorem State.writePassages_crownRank : (s.writePassages).crownRank = s.crownRank :=
    by simp only [State.writePassages]
@[simp] theorem State.writePassages_crownQty : (s.writePassages).crownQty = s.crownQty :=
    by simp only [State.writePassages]
@[simp] theorem State.writePassages_crownTxt : (s.writePassages).crownTxt = s.crownTxt :=
    by simp only [State.writePassages]
@[simp] theorem State.writePassages_crownTxtLen : (s.writePassages).crownTxtLen = s.crownTxtLen :=
    by simp only [State.writePassages]
@[simp] theorem State.writePassages_doc : (s.writePassages).doc = s.doc := by simp only [State.writePassages]
@[simp] theorem State.writePassages_docLen : (s.writePassages).docLen = s.docLen := by simp only [State.writePassages]
@[simp] theorem State.writePassages_seedV : (s.writePassages).seedV = s.seedV := by simp only [State.writePassages]
@[simp] theorem State.writePassages_gridV : (s.writePassages).gridV = s.gridV := by simp only [State.writePassages]
@[simp] theorem State.writePassages_evenV : (s.writePassages).evenV = s.evenV := by simp only [State.writePassages]
@[simp] theorem State.writePassages_passV : (s.writePassages).passV = true := rfl
@[simp] theorem State.writePassages_crownV : (s.writePassages).crownV = s.crownV := by simp only [State.writePassages]
@[simp] theorem State.writePassages_docV : (s.writePassages).docV = s.docV := by simp only [State.writePassages]
@[simp] theorem State.writePassages_fault : (s.writePassages).fault = s.fault := by simp only [State.writePassages]
@[simp] theorem State.writePassages_errCode : (s.writePassages).errCode = s.errCode :=
    by simp only [State.writePassages]
@[simp] theorem State.writePassages_errInfo : (s.writePassages).errInfo = s.errInfo :=
    by simp only [State.writePassages]
@[simp] theorem State.writePassages_errCmd : (s.writePassages).errCmd = s.errCmd := by simp only [State.writePassages]
@[simp] theorem State.writePassages_cfg : (s.writePassages).cfg = s.cfg := by simp only [State.writePassages]
@[simp] theorem State.writePassages_seedIn : (s.writePassages).seedIn = s.seedIn := by simp only [State.writePassages]
@[simp] theorem State.writePassages_frags : (s.writePassages).frags = s.frags := by simp only [State.writePassages]
@[simp] theorem State.writePassages_docAddr : (s.writePassages).docAddr = s.docAddr :=
    by simp only [State.writePassages]
@[simp] theorem State.writePassages_host : (s.writePassages).host = s.host := by simp only [State.writePassages]
@[simp] theorem State.writePassages_draws : (s.writePassages).draws = s.draws := by simp only [State.writePassages]

/-! The writes of CROWN. -/

@[simp] theorem State.writeCrown_seed : (s.writeCrown).seed = s.seed := by simp only [State.writeCrown]
@[simp] theorem State.writeCrown_grid : (s.writeCrown).grid = s.grid := by simp only [State.writeCrown]
@[simp] theorem State.writeCrown_evenScore : (s.writeCrown).evenScore = s.evenScore := by simp only [State.writeCrown]
@[simp] theorem State.writeCrown_evenLabel : (s.writeCrown).evenLabel = s.evenLabel := by simp only [State.writeCrown]
@[simp] theorem State.writeCrown_passages : (s.writeCrown).passages = s.passages := by simp only [State.writeCrown]
@[simp] theorem State.writeCrown_crownRank : (s.writeCrown).crownRank = BitVec.ofNat 8 (crown s.grid).1 := rfl
@[simp] theorem State.writeCrown_crownQty : (s.writeCrown).crownQty = BitVec.ofNat 8 (crown s.grid).2 := rfl
@[simp] theorem State.writeCrown_crownTxt : (s.writeCrown).crownTxt = crownTxtOf (crownText (crown s.grid).1 (crown s.grid).2) (Config.freeCrownTxt s.draws) :=
    rfl
@[simp] theorem State.writeCrown_crownTxtLen : (s.writeCrown).crownTxtLen = BitVec.ofNat 8 (crownText (crown s.grid).1 (crown s.grid).2).length :=
    rfl
@[simp] theorem State.writeCrown_doc : (s.writeCrown).doc = s.doc := by simp only [State.writeCrown]
@[simp] theorem State.writeCrown_docLen : (s.writeCrown).docLen = s.docLen := by simp only [State.writeCrown]
@[simp] theorem State.writeCrown_seedV : (s.writeCrown).seedV = s.seedV := by simp only [State.writeCrown]
@[simp] theorem State.writeCrown_gridV : (s.writeCrown).gridV = s.gridV := by simp only [State.writeCrown]
@[simp] theorem State.writeCrown_evenV : (s.writeCrown).evenV = s.evenV := by simp only [State.writeCrown]
@[simp] theorem State.writeCrown_passV : (s.writeCrown).passV = s.passV := by simp only [State.writeCrown]
@[simp] theorem State.writeCrown_crownV : (s.writeCrown).crownV = true := rfl
@[simp] theorem State.writeCrown_docV : (s.writeCrown).docV = s.docV := by simp only [State.writeCrown]
@[simp] theorem State.writeCrown_fault : (s.writeCrown).fault = s.fault := by simp only [State.writeCrown]
@[simp] theorem State.writeCrown_errCode : (s.writeCrown).errCode = s.errCode := by simp only [State.writeCrown]
@[simp] theorem State.writeCrown_errInfo : (s.writeCrown).errInfo = s.errInfo := by simp only [State.writeCrown]
@[simp] theorem State.writeCrown_errCmd : (s.writeCrown).errCmd = s.errCmd := by simp only [State.writeCrown]
@[simp] theorem State.writeCrown_cfg : (s.writeCrown).cfg = s.cfg := by simp only [State.writeCrown]
@[simp] theorem State.writeCrown_seedIn : (s.writeCrown).seedIn = s.seedIn := by simp only [State.writeCrown]
@[simp] theorem State.writeCrown_frags : (s.writeCrown).frags = s.frags := by simp only [State.writeCrown]
@[simp] theorem State.writeCrown_docAddr : (s.writeCrown).docAddr = s.docAddr := by simp only [State.writeCrown]
@[simp] theorem State.writeCrown_host : (s.writeCrown).host = s.host := by simp only [State.writeCrown]
@[simp] theorem State.writeCrown_draws : (s.writeCrown).draws = s.draws + 1 := rfl

/-! The writes of ASM. -/

@[simp] theorem State.storeDocument_seed : (s.storeDocument).seed = s.seed := by simp only [State.storeDocument]
@[simp] theorem State.storeDocument_grid : (s.storeDocument).grid = s.grid := by simp only [State.storeDocument]
@[simp] theorem State.storeDocument_evenScore : (s.storeDocument).evenScore = s.evenScore :=
    by simp only [State.storeDocument]
@[simp] theorem State.storeDocument_evenLabel : (s.storeDocument).evenLabel = s.evenLabel :=
    by simp only [State.storeDocument]
@[simp] theorem State.storeDocument_passages : (s.storeDocument).passages = s.passages :=
    by simp only [State.storeDocument]
@[simp] theorem State.storeDocument_crownRank : (s.storeDocument).crownRank = s.crownRank :=
    by simp only [State.storeDocument]
@[simp] theorem State.storeDocument_crownQty : (s.storeDocument).crownQty = s.crownQty :=
    by simp only [State.storeDocument]
@[simp] theorem State.storeDocument_crownTxt : (s.storeDocument).crownTxt = s.crownTxt :=
    by simp only [State.storeDocument]
@[simp] theorem State.storeDocument_crownTxtLen : (s.storeDocument).crownTxtLen = s.crownTxtLen :=
    by simp only [State.storeDocument]
@[simp] theorem State.storeDocument_doc : (s.storeDocument).doc = s.doc.storeFromZero (s.document.take s.docLength) :=
    rfl
@[simp] theorem State.storeDocument_docLen : (s.storeDocument).docLen = BitVec.ofNat 32 s.docLength := rfl
@[simp] theorem State.storeDocument_seedV : (s.storeDocument).seedV = s.seedV := by simp only [State.storeDocument]
@[simp] theorem State.storeDocument_gridV : (s.storeDocument).gridV = s.gridV := by simp only [State.storeDocument]
@[simp] theorem State.storeDocument_evenV : (s.storeDocument).evenV = s.evenV := by simp only [State.storeDocument]
@[simp] theorem State.storeDocument_passV : (s.storeDocument).passV = s.passV := by simp only [State.storeDocument]
@[simp] theorem State.storeDocument_crownV : (s.storeDocument).crownV = s.crownV := by simp only [State.storeDocument]
@[simp] theorem State.storeDocument_docV : (s.storeDocument).docV = true := rfl
@[simp] theorem State.storeDocument_fault : (s.storeDocument).fault = s.fault := by simp only [State.storeDocument]
@[simp] theorem State.storeDocument_errCode : (s.storeDocument).errCode = s.errCode :=
    by simp only [State.storeDocument]
@[simp] theorem State.storeDocument_errInfo : (s.storeDocument).errInfo = s.errInfo :=
    by simp only [State.storeDocument]
@[simp] theorem State.storeDocument_errCmd : (s.storeDocument).errCmd = s.errCmd := by simp only [State.storeDocument]
@[simp] theorem State.storeDocument_cfg : (s.storeDocument).cfg = s.cfg := by simp only [State.storeDocument]
@[simp] theorem State.storeDocument_seedIn : (s.storeDocument).seedIn = s.seedIn := by simp only [State.storeDocument]
@[simp] theorem State.storeDocument_frags : (s.storeDocument).frags = s.frags := by simp only [State.storeDocument]
@[simp] theorem State.storeDocument_docAddr : (s.storeDocument).docAddr = s.docAddr :=
    by simp only [State.storeDocument]
@[simp] theorem State.storeDocument_host : (s.storeDocument).host = s.host := by simp only [State.storeDocument]
@[simp] theorem State.storeDocument_draws : (s.storeDocument).draws = s.draws := by simp only [State.storeDocument]

/-! Reset. -/

@[simp] theorem State.hardReset_seed : (s.hardReset).seed = Config.freeSeed s.draws := rfl
@[simp] theorem State.hardReset_grid : (s.hardReset).grid = Config.freeGrid s.draws := rfl
@[simp] theorem State.hardReset_evenScore : (s.hardReset).evenScore = Config.freeEvenScore s.draws := rfl
@[simp] theorem State.hardReset_evenLabel : (s.hardReset).evenLabel = Config.freeEvenLabel s.draws := rfl
@[simp] theorem State.hardReset_passages : (s.hardReset).passages = Config.freePassages s.draws := rfl
@[simp] theorem State.hardReset_crownRank : (s.hardReset).crownRank = Config.freeCrownRank s.draws := rfl
@[simp] theorem State.hardReset_crownQty : (s.hardReset).crownQty = Config.freeCrownQty s.draws := rfl
@[simp] theorem State.hardReset_crownTxt : (s.hardReset).crownTxt = Config.freeCrownTxt s.draws := rfl
@[simp] theorem State.hardReset_crownTxtLen : (s.hardReset).crownTxtLen = Config.freeCrownTxtLen s.draws := rfl
@[simp] theorem State.hardReset_doc : (s.hardReset).doc = [] := rfl
@[simp] theorem State.hardReset_docLen : (s.hardReset).docLen = 0 := rfl
@[simp] theorem State.hardReset_seedV : (s.hardReset).seedV = false := rfl
@[simp] theorem State.hardReset_gridV : (s.hardReset).gridV = false := rfl
@[simp] theorem State.hardReset_evenV : (s.hardReset).evenV = false := rfl
@[simp] theorem State.hardReset_passV : (s.hardReset).passV = false := rfl
@[simp] theorem State.hardReset_crownV : (s.hardReset).crownV = false := rfl
@[simp] theorem State.hardReset_docV : (s.hardReset).docV = false := rfl
@[simp] theorem State.hardReset_fault : (s.hardReset).fault = false := rfl
@[simp] theorem State.hardReset_errCode : (s.hardReset).errCode = 0 := rfl
@[simp] theorem State.hardReset_errInfo : (s.hardReset).errInfo = 0 := rfl
@[simp] theorem State.hardReset_errCmd : (s.hardReset).errCmd = 0 := rfl
@[simp] theorem State.hardReset_cfg : (s.hardReset).cfg = s.cfg := by simp only [State.hardReset]
@[simp] theorem State.hardReset_seedIn : (s.hardReset).seedIn = s.seedIn := by simp only [State.hardReset]
@[simp] theorem State.hardReset_frags : (s.hardReset).frags = s.frags := by simp only [State.hardReset]
@[simp] theorem State.hardReset_docAddr : (s.hardReset).docAddr = s.docAddr := by simp only [State.hardReset]
@[simp] theorem State.hardReset_host : (s.hardReset).host = s.host := by simp only [State.hardReset]
@[simp] theorem State.hardReset_draws : (s.hardReset).draws = s.draws + 1 := rfl

end Sys2Proof.Machine
end

