-- ==== Sys2Proof/Laws/Exec.lean ====
section
/-! SUPPORT. Laws/Exec.lean: what a command, a word and a step can do, said once; later proofs cite these and do
not unfold `exec` or `step`. -/

namespace Sys2Proof.Machine

/-- The body of a command, after its test of `FAULT`. -/
def commandBody : Instr → State → State
  | .nop => fun s => s
  | .ldseed => State.loadSeed
  | .decode => fun s => s.needSeed (encode .decode) State.writeGrid
  | .even => fun s => s.needSeed (encode .even) State.writeEven
  | .pass => fun s => s.needGrid (encode .pass) State.writePassages
  | .crown => fun s => s.needGrid (encode .crown) State.writeCrown
  | .asm => fun s => s.assembleDoc (encode .asm)
  | .query => State.runPipeline

theorem exec_eq_body (i : Instr) (s : State) : exec i s = .next (s.unlessHalted (commandBody i)) := by
  cases i <;> rfl

/-- The body of a word: a command's, or the fault entry of an illegal word. -/
def wordBody (w : Byte) : State → State :=
  match decodeWord w with
  | .ok i => commandBody i
  | .error _ => fun s => s.raise w .illegalCmd

theorem takeCommand_eq_body (w : Byte) (s : State) :
    takeCommand w s = .next (s.unlessHalted (wordBody w)) := by
  unfold takeCommand wordBody
  cases decodeWord w with
  | ok i => exact exec_eq_body i s
  | error e => rfl

/-- The eight words and the illegal ones. -/
theorem word_cases (w : Byte) : 8 ≤ w.toNat ∨ ∃ i, w = encode i := by
  have h : ∀ w : Byte, 8 ≤ w.toNat ∨ w ∈ [encode .nop, encode .ldseed, encode .decode, encode .even, encode .pass,
      encode .crown, encode .asm, encode .query] := by decide +kernel
  refine (h w).imp_right fun hm => ?_
  simp only [List.mem_cons, List.not_mem_nil, or_false] at hm
  rcases hm with h | h | h | h | h | h | h | h <;> exact ⟨_, h⟩

theorem wordBody_encode (i : Instr) : wordBody (encode i) = commandBody i := by cases i <;> rfl

theorem wordBody_illegal (w : Byte) (h : 8 ≤ w.toNat) : wordBody w = fun s => s.raise w .illegalCmd := by
  have hd : ∀ w : Byte, 8 ≤ w.toNat → decodeWord w = .error (.illegalCmd w) := by decide +kernel
  rw [wordBody, hd w h]

@[simp] theorem unlessHalted_of_halted {s : State} (h : s.fault = true) (f : State → State) :
    s.unlessHalted f = s := if_pos h

@[simp] theorem unlessHalted_of_running {s : State} (h : s.fault = false) (f : State → State) :
    s.unlessHalted f = f s := if_neg (by simp [h])

@[simp] theorem needSeed_of_valid {s : State} (h : s.seedV = true) (w : Byte) (f : State → State) :
    s.needSeed w f = f s := if_pos h

@[simp] theorem needSeed_of_invalid {s : State} (h : s.seedV = false) (w : Byte) (f : State → State) :
    s.needSeed w f = s.raise w .noSeed := if_neg (by simp [h])

@[simp] theorem needGrid_of_valid {s : State} (h : s.gridV = true) (w : Byte) (f : State → State) :
    s.needGrid w f = f s := if_pos h

@[simp] theorem needGrid_of_invalid {s : State} (h : s.gridV = false) (w : Byte) (f : State → State) :
    s.needGrid w f = s.raise w .noGrid := if_neg (by simp [h])

/-- All that ASM can do, tests first (60_exceptions.md R176). -/
theorem assembleDoc_cases (s : State) (w : Byte) :
    (s.seedV = false ∧ s.assembleDoc w = s.raise w .noSeed) ∨
    (s.seedV = true ∧ s.gridV = false ∧ s.assembleDoc w = s.raise w .noGrid) ∨
    (∃ id, s.seedV = true ∧ s.gridV = true ∧ s.frags.firstMissing = some id ∧
      s.assembleDoc w = s.withdrawDoc.raise w (.fragMissing id)) ∨
    (s.seedV = true ∧ s.gridV = true ∧ s.frags.firstMissing = none ∧ s.docLength > s.cfg.docMax ∧
      s.assembleDoc w = s.withdrawDoc.raise w .docOverflow) ∨
    (s.seedV = true ∧ s.gridV = true ∧ s.frags.firstMissing = none ∧ s.docLength ≤ s.cfg.docMax ∧
      s.assembleDoc w = s.storeDocument) := by
  unfold State.assembleDoc
  cases hs : s.seedV with
  | false => exact .inl ⟨rfl, by simp [hs]⟩
  | true =>
    cases hg : s.gridV with
    | false => exact .inr (.inl ⟨rfl, rfl, by simp [hs, hg]⟩)
    | true =>
      cases hm : s.frags.firstMissing with
      | some id => exact .inr (.inr (.inl ⟨id, rfl, rfl, rfl, by simp [hs, hg, State.needFragments, hm]⟩))
      | none =>
        by_cases hn : s.docLength > s.cfg.docMax
        · exact .inr (.inr (.inr (.inl ⟨rfl, rfl, rfl, hn, by
            simp [hs, hg, State.needFragments, hm, State.needRoom, hn]⟩)))
        · exact .inr (.inr (.inr (.inr ⟨rfl, rfl, rfl, Nat.le_of_not_lt hn, by
            simp [hs, hg, State.needFragments, hm, State.needRoom, hn]⟩)))

theorem docMax_bounds (c : Config) : 1 ≤ c.docMax ∧ c.docMax ≤ 2 ^ 32 - 1 := by
  have := c.docMaxLessOne.isLt
  unfold Config.docMax
  omega

/-- All that one action of the host can do when the step answers a next state. -/
theorem hostAct_cases {a : HostAction} {s t : State} (h : hostAct a s = .next t) :
    (∃ w, (a = .command w ∨ a = .disturbed w .storeSilent) ∧ t = s.unlessHalted (wordBody w)) ∨
    (∃ w v, a = .disturbed w (.seedMoves v) ∧ samplesSeedIn w s = false ∧
      t = { s.unlessHalted (wordBody w) with seedIn := v }) ∨
    (∃ w F, a = .disturbed w (.storeChanges F) ∧ readsStore w s = false ∧
      t = { s.unlessHalted (wordBody w) with frags := F }) ∨
    ((a = .assertReset ∨ ∃ w, a = .disturbed w .rst) ∧ t = s.hardReset) ∨
    (∃ v, a = .setSeedIn v ∧ t = { s with seedIn := v }) ∨
    (∃ id c, a = .setFragment id c ∧ t = { s with frags := s.frags.set id.val c id.isLt }) ∨
    (∃ d, a = .setDocAddr d ∧ t = { s with docAddr := d }) := by
  cases a with
  | command w =>
    rw [hostAct, takeCommand_eq_body] at h
    exact .inl ⟨w, .inl rfl, (Host.Outcome.next.inj h).symm⟩
  | setSeedIn v => exact .inr (.inr (.inr (.inr (.inl ⟨v, rfl, (Host.Outcome.next.inj h).symm⟩))))
  | setFragment id c => exact .inr (.inr (.inr (.inr (.inr (.inl ⟨id, c, rfl, (Host.Outcome.next.inj h).symm⟩)))))
  | setDocAddr d => exact .inr (.inr (.inr (.inr (.inr (.inr ⟨d, rfl, (Host.Outcome.next.inj h).symm⟩)))))
  | assertReset => exact .inr (.inr (.inr (.inl ⟨.inl rfl, (Host.Outcome.next.inj h).symm⟩)))
  | disturbed w d =>
    cases d with
    | rst => exact .inr (.inr (.inr (.inl ⟨.inr ⟨w, rfl⟩, (Host.Outcome.next.inj h).symm⟩)))
    | seedMoves v =>
      simp only [hostAct, takeDisturbed, takeCommand_eq_body, thenChange] at h
      split at h
      · cases h
      · rename_i hc
        exact .inr (.inl ⟨w, v, rfl, by simpa using hc, (Host.Outcome.next.inj h).symm⟩)
    | storeChanges F =>
      simp only [hostAct, takeDisturbed, takeCommand_eq_body, thenChange] at h
      split at h
      · cases h
      · rename_i hc
        exact .inr (.inr (.inl ⟨w, F, rfl, by simpa using hc, (Host.Outcome.next.inj h).symm⟩))
    | storeSilent =>
      simp only [hostAct, takeDisturbed, takeCommand_eq_body] at h
      split at h
      · cases h
      · exact .inl ⟨w, .inr rfl, (Host.Outcome.next.inj h).symm⟩

/-- A step that answers a next state: nothing was pending, or the oldest action was carried out. -/
theorem step_cases {s t : State} (h : step s = .next t) :
    (s.host = [] ∧ t = s) ∨ ∃ a rest, s.host = a :: rest ∧ hostAct a { s with host := rest } = .next t := by
  unfold step nextAction at h
  split at h
  · rename_i hh
    exact .inl ⟨hh, (Host.Outcome.next.inj h).symm⟩
  · rename_i a rest hh
    exact .inr ⟨a, rest, hh, h⟩

/-- Package an induction over a run once: what holds at its start and is kept by every step holds of every state
it leads to. -/
theorem leadsTo_induction {P : State → Prop} {s t : State} (hst : s.leadsTo t) (hs : P s)
    (hstep : ∀ u v, P u → step u = .next v → P v) : P t := by
  induction hst with
  | refl => exact hs
  | next _ h ih => exact hstep _ _ ih h

end Sys2Proof.Machine
end

