-- ==== Sys2Proof/Laws/Fragments.lean ====
section
/-! SUPPORT. Laws/Fragments.lean: what the search for an absent fragment finds (spec/44_assemble.md R140). -/

namespace Sys2Proof

open Machine

theorem lt_of_mem_take_finRange {id a : Fin 10} (h : a ∈ (List.finRange 10).take id.val) : a < id := by
  revert id a
  decide

theorem finRange_split (id : Fin 10) :
    List.finRange 10 = (List.finRange 10).take id.val ++ id :: (List.finRange 10).drop (id.val + 1) := by
  revert id
  decide

/-- Nothing is missing exactly when all ten fragments are present. -/
theorem FragStore.firstMissing_eq_none {F : FragStore} : F.firstMissing = none ↔ complete F := by
  simp [FragStore.firstMissing, complete]

/-- The first missing fragment is the lowest absent one. -/
theorem FragStore.firstMissing_eq_some {F : FragStore} {id : Fin 10} :
    F.firstMissing = some id ↔ lowestAbsent F id := by
  have key : ∀ {j : Fin 10}, lowestAbsent F j → F.firstMissing = some j := by
    rintro j ⟨hj, hlow⟩
    refine List.find?_eq_some_iff_append.2 ⟨by simpa using hj, _, _, finRange_split j, fun a ha => ?_⟩
    simpa using hlow a (lt_of_mem_take_finRange ha)
  refine ⟨fun h => ?_, key⟩
  have habs : F.present id = false := by simpa using List.find?_some h
  refine ⟨habs, fun j hj => ?_⟩
  by_contra hne
  have hex : ∃ n : Nat, ∃ hn : n < 10, F.present ⟨n, hn⟩ = false := ⟨j.val, j.isLt, by simpa using hne⟩
  classical
  obtain ⟨hlt, hm⟩ := Nat.find_spec hex
  have hmin : lowestAbsent F ⟨Nat.find hex, hlt⟩ := ⟨hm, fun k hk => by
    by_contra hk'
    exact Nat.find_min hex hk ⟨k.isLt, by simpa using hk'⟩⟩
  have hle : Nat.find hex ≤ j.val := Nat.find_min' hex ⟨j.isLt, by simpa using hne⟩
  have heq : id = ⟨Nat.find hex, hlt⟩ := Option.some.inj (h.symm.trans (key hmin))
  have : id.val = Nat.find hex := congrArg Fin.val heq
  have : j.val < id.val := hj
  omega

end Sys2Proof
end

