-- ==== Sys2Proof/Laws/Grid.lean ====
section
/-! SUPPORT. Laws/Grid.lean: reading the cells of a grid that was built, marked or joined (spec/10_state.md R22). -/

namespace Sys2Proof

theorem Grid.cell_index_lt (r : Ring) (c : Sector) : 64 * r.val + c.val < 256 := by omega

@[simp] theorem Grid.cell_ofFn (f : Ring → Sector → Bool) (r : Ring) (c : Sector) :
    (Grid.ofFn f).cell r c = f r c := by
  rw [Grid.cell, Grid.ofFn, BitVec.getMsbD_ofFnBE, dif_pos (Grid.cell_index_lt r c)]
  have hr : (64 * r.val + c.val) / 64 = r.val := by omega
  have hc : (64 * r.val + c.val) % 64 = c.val := by omega
  simp only [hr, hc]

/-- Two grids with the same cells are the same grid. -/
theorem Grid.ext_cell {g h : Grid} (heq : ∀ r c, g.cell r c = h.cell r c) : g = h := by
  cases g with
  | mk a =>
    cases h with
    | mk b =>
      congr 1
      refine BitVec.eq_of_getMsbD_eq fun i hi => ?_
      have := heq ⟨i / 64, by omega⟩ ⟨i % 64, by omega⟩
      simp only [Grid.cell] at this
      rwa [show 64 * (i / 64) + i % 64 = i by omega] at this

/-- Every grid is built from its cells. -/
theorem Grid.ofFn_cell (g : Grid) : Grid.ofFn g.cell = g := Grid.ext_cell fun r c => by simp

@[simp] theorem Grid.marked_blank (x : Cell) : Grid.blank.marked x = false := by
  simp [Grid.marked, Grid.cell, Grid.blank]

@[simp] theorem Grid.marked_union (g h : Grid) (x : Cell) :
    (g.union h).marked x = (g.marked x || h.marked x) := by
  simp [Grid.marked, Grid.cell, Grid.union]

/-- Marking a cell adds that cell and no other. -/
@[simp] theorem Grid.marked_mark (g : Grid) (x y : Cell) :
    (g.mark x).marked y = (g.marked y || decide (y = x)) := by
  have hx := Grid.cell_index_lt x.1 x.2
  have hy := Grid.cell_index_lt y.1 y.2
  simp only [Grid.marked, Grid.cell, Grid.mark, BitVec.getMsbD_or]
  congr 1
  rw [BitVec.getMsbD_eq_getLsbD, BitVec.getLsbD_twoPow, Bool.eq_iff_iff]
  simp only [Bool.and_eq_true, decide_eq_true_eq]
  constructor
  · rintro ⟨-, -, h⟩
    exact Prod.ext (Fin.ext (by omega)) (Fin.ext (by omega))
  · rintro rfl
    exact ⟨hy, by omega, by omega⟩

end Sys2Proof
end

