-- ==== Sys2Proof/Laws/Invariants.lean ====
section
/-! SUPPORT. Laws/Invariants.lean: common ways to show the invariants of Safety.lean, and runs that carry their store
(spec/10_state.md R34). -/

namespace Sys2Proof.Machine

/-- Where no trait and no document is valid, only the grid, `DOC_LEN` and the error code are left to show. -/
theorem State.Inv.of_traits_invalid {s : State} (hgrid : s.gridV = true → s.seedV = true ∧ s.grid = decodeGrid s.seed)
    (heven : s.evenV = false) (hpass : s.passV = false) (hcrown : s.crownV = false) (hdoc : s.docV = false)
    (hlen : s.docLen = 0) (hcode : s.fault = false ↔ s.errCode = 0) : s.Inv where
  grid_valid := hgrid
  even_valid h := by simp [heven] at h
  pass_valid h := by simp [hpass] at h
  crown_valid h := by simp [hcrown] at h
  doc_valid h := by simp [hdoc] at h
  doc_invalid _ := hlen
  fault_code := hcode

/-- Every state shows what it shows. -/
theorem State.SameVisible.refl (s : State) : s.SameVisible s := by constructor <;> simp

/-- A seed that is not valid, and the count of draws, are not visible. -/
theorem State.SameVisible.unread_seed {s : State} (h : s.seedV = false) (S : Seed) (n : Nat) :
    s.SameVisible { s with seed := S, draws := n } := by
  constructor <;> simp [h]

/-- Every state of a run is a state of that run with some store carried along. -/
theorem State.reached.runWith {s : State} (h : s.reached) : ∃ F, State.RunWith F s := by
  obtain ⟨cfg, v, F, a, host, hl⟩ := h
  induction hl with
  | refl => exact ⟨none, .launch cfg v F a host⟩
  | @next t u _ hstep ih =>
    obtain ⟨G, hG⟩ := ih
    by_cases hn : t.assemblesNext
    · exact ⟨some t.frags, .assembled hG hn hstep⟩
    · exact ⟨G, .other hG hn hstep⟩

end Sys2Proof.Machine
end

