-- ==== Sys2Proof/Laws/PerInstr.lean ====
section
/-! SUPPORT. Laws/PerInstr.lean: one statement for every command, one lemma per constructor. -/

/-- A command is well formed, its word is one of the eight of spec/30_encoding.md R71, and its mnemonic names it
(R76). -/
def Sys2Proof.Laws.Encoding.Statement (i : Sys2Proof.Instr) : Prop :=
  i.wf = true ∧ Sys2Proof.wordOk (Sys2Proof.encode i) = true ∧ Sys2Proof.Instr.ofMnemonic i.mnemonic = some i

namespace Sys2Proof.Laws.Encoding

theorem nop : Statement .nop := ⟨rfl, by decide, by decide⟩
theorem ldseed : Statement .ldseed := ⟨rfl, by decide, by decide⟩
theorem decode : Statement .decode := ⟨rfl, by decide, by decide⟩
theorem even : Statement .even := ⟨rfl, by decide, by decide⟩
theorem pass : Statement .pass := ⟨rfl, by decide, by decide⟩
theorem crown : Statement .crown := ⟨rfl, by decide, by decide⟩
theorem asm : Statement .asm := ⟨rfl, by decide, by decide⟩
theorem query : Statement .query := ⟨rfl, by decide, by decide⟩

end Sys2Proof.Laws.Encoding
end

