-- ==== Sys2Proof/Laws/Ranges.lean ====
section
/-! SUPPORT. Laws/Ranges.lean: the results of the functions fit their registers (spec/10_state.md R28 to R30). -/

namespace Sys2Proof

theorem evenScoreOf_le (ones : Nat) : evenScoreOf ones ≤ 10 := by
  unfold evenScoreOf
  omega

/-- Each entry sector adds at most one to the count. -/
theorem Claims.enter_count_le (g : Grid) (t : Claims) (c : Sector) : (Claims.enter g t c).count ≤ t.count + 1 := by
  unfold Claims.enter
  split
  · simp only
    split <;> simp
  · simp

theorem Claims.foldl_count_le (g : Grid) (cs : List Sector) (t : Claims) :
    (cs.foldl (Claims.enter g) t).count ≤ t.count + cs.length := by
  induction cs generalizing t with
  | nil => simp
  | cons c cs ih =>
    have h1 := ih (Claims.enter g t c)
    have h2 := Claims.enter_count_le g t c
    simp only [List.foldl_cons, List.length_cons]
    omega

/-- The count is at most the number of entry sectors, so it fits `PASSAGES`. -/
theorem countPassages_le_64 (g : Grid) : countPassages g ≤ 64 := by
  have h := Claims.foldl_count_le g (List.finRange 64) { claimed := Grid.blank, count := 0 }
  rw [List.length_finRange] at h
  simpa [countPassages] using h

/-- The rank is `0` or a length that was tried. -/
theorem crownRankOf_range (g : Grid) : crownRankOf g = 0 ∨ (2 ≤ crownRankOf g ∧ crownRankOf g ≤ 64) := by
  unfold crownRankOf
  cases h : ((List.range 63).map (64 - ·)).find? (hasPal g) with
  | none => exact .inl rfl
  | some L =>
    obtain ⟨k, hk, rfl⟩ := List.mem_map.1 (List.mem_of_find?_eq_some h)
    have := List.mem_range.1 hk
    exact .inr ⟨by simp only [Option.getD_some]; omega, by simp only [Option.getD_some]; omega⟩

theorem crownQtyOf_le (g : Grid) (rank : Nat) : crownQtyOf g rank ≤ 64 := by
  unfold crownQtyOf
  split
  · omega
  · exact (List.countP_le_length).trans (by simp)

/-- The text of a number below 100 has one or two bytes. -/
theorem dec_length (n : Nat) (h : n < 100) : (dec n).length ≤ 2 := by
  have : ∀ m < 100, (dec m).length ≤ 2 := by decide +kernel
  exact this n h

/-- The Crown string fits `CROWN_TXT`. -/
theorem crownText_length_le (rank qty : Nat) (hr : rank < 100) (hq : qty < 100) :
    (crownText rank qty).length ≤ 5 := by
  have h1 := dec_length rank hr
  have h2 := dec_length qty hq
  unfold crownText
  split
  · simp
  · simp only [List.length_append, List.length_cons, List.length_nil]
    omega

theorem crown_text_length_le (g : Grid) : (crownText (crown g).1 (crown g).2).length ≤ 5 := by
  have h1 := crownRankOf_range g
  have h2 := crownQtyOf_le g (crownRankOf g)
  exact crownText_length_le _ _ (by simp only [crown]; omega) (by simp only [crown]; omega)

/-- Byte `k` of `CROWN_TXT` after the text is written. -/
theorem crownTxtOf_get (txt : Bytes) (rest : Vector Byte 5) (k : Fin 5) :
    (crownTxtOf txt rest).get k = (txt[k.val]?).getD (rest.get k) := by
  simp [crownTxtOf, Vector.get_eq_getElem]

end Sys2Proof
end

