-- ==== Sys2Proof/Tests/Slice0.lean ====
section
/-! SUPPORT. Tests/Slice0.lean: own tests. Expected values come from spec/95_test_vectors.md (named V-...) or from
the rule named; the configuration TCFG is that file's invention for tests. -/

-- One thread: many theorems waiting for the kernel at once would each hold a stack.
set_option Elab.async false

namespace Sys2Proof.Tests

open Sys2Proof.Machine

/-! ## Helpers -/

/-- TCFG (95_test_vectors.md section 0), `DOC_MAX = 4096`. -/
def tcfg : Config where
  tokRotA := [0x52, 0x28]
  tokRotB := [0x29, 0x5B]
  tokRotC := [0x5D]
  tokBlack := [0x6B]
  tokWhite := [0x77, 0x68]
  tokShapeClose := [0x3B]
  tokLineClose := [0x7C]
  docMaxLessOne := 4095

/-- TCFG's fragments. -/
def tfrags : FragStore :=
  #v[some [0x48, 0x7B], some [0x7D, 0x54], some [0x61], some [0x62], some [0x63], some [0x64],
    some [0x30, 0x3D], some [0x31, 0x3D], some [0x32, 0x3D], some [0x33, 0x3D]]

/-- After reset, `seed_in` driven to `v`. -/
def base (v : BitVec 256) : State := State.launch tcfg v tfrags 0 []

/-- A seed loaded, and decoded. -/
def loaded (S : Seed) : State := { base 0 with seed := S, seedV := true }
def gridded (S : Seed) : State := { loaded S with grid := decodeGrid S, gridV := true }

/-- Halted by an illegal word. -/
def halted : State := { base 0 with fault := true, errCode := 1, errCmd := 0x08 }

/-- The next state, where there is one. -/
def after (o : Host.Outcome State Fault Refusal) : State :=
  match o with
  | .next s => s
  | .fault _ => State.reset
  | .refused _ => State.reset

/-- Seeds by name (95_test_vectors.md section 0). -/
def zeroSeed : Seed := Vector.replicate 32 0
def altSeed : Seed := Vector.replicate 32 0x0F
def hashA : BitVec 256 := 0xe3b0c44298fc1c149afbf4c8996fb92427ae41e4649b934ca495991b7852b855#256
def hashB : BitVec 256 := 0xba7816bf8f01cfea414140de5dae2223b00361a396177a9cb410ff61f20015ad#256
def symPort : BitVec 256 := 0x0123456789abcdef0123456789abcdeffedcba9876543210fedcba9876543210#256

/-! ## Well-formedness refuses ill-formed terms -/

theorem test_wf_refuses_word_08 : wordOk 0x08 = false := by decide
theorem test_wf_refuses_fragment_id_10 : fragIdOk 10 = false := by decide
theorem test_wf_refuses_long_fragment (b : Bytes) (h : b.length = 2 ^ 32) : fragmentOk (some b) = false := by
  simp [fragmentOk, h]
theorem test_wf_refuses_store_with_long_fragment (b : Bytes) (h : b.length = 2 ^ 32) :
    FragStore.ok (Vector.replicate 10 (some b)) = false := by
  simp [FragStore.ok, fragmentOk, h]
theorem test_wf_refuses_moving_seed_in : (HostAction.disturbed 0x01 (.seedMoves 0)).wf = false := by decide
theorem test_wf_refuses_changing_store : (HostAction.disturbed 0x06 (.storeChanges (Vector.replicate 10 none))).wf = false := by
  decide
theorem test_wf_refuses_silent_store : (HostAction.disturbed 0x07 .storeSilent).wf = false := by decide
theorem test_wf_refuses_action_with_long_fragment (b : Bytes) (h : b.length = 2 ^ 32) :
    (HostAction.setFragment 0 (some b)).wf = false := by
  simp [HostAction.wf, fragmentOk, h]
/-- R196: "issue any command word"; P5 issues `0x08`. -/
theorem test_wf_accepts_every_word (w : Byte) : (HostAction.command w).wf = true ∧ (HostAction.disturbed w .rst).wf = true :=
  ⟨rfl, rfl⟩
theorem test_wf_accepts_every_command : (opcodeTable.map fun row => row.instr.wf).all id = true := by decide

/-! ## Decoding: the words of 30_encoding.md R71, bit by bit -/

theorem test_decode_nop : decodeWord 0b00000000 = .ok .nop := by decide
theorem test_decode_ldseed : decodeWord 0b00000001 = .ok .ldseed := by decide
theorem test_decode_decode : decodeWord 0b00000010 = .ok .decode := by decide
theorem test_decode_even : decodeWord 0b00000011 = .ok .even := by decide
theorem test_decode_pass : decodeWord 0b00000100 = .ok .pass := by decide
theorem test_decode_crown : decodeWord 0b00000101 = .ok .crown := by decide
theorem test_decode_asm : decodeWord 0b00000110 = .ok .asm := by decide
theorem test_decode_query : decodeWord 0b00000111 = .ok .query := by decide
/-- V-F1: "No high bit is ignored: `0x81` is not LDSEED." -/
theorem test_decode_81_illegal : decodeWord 0b10000001 = .error (.illegalCmd 0x81) := by decide
theorem test_decode_08_illegal : decodeWord 0b00001000 = .error (.illegalCmd 0x08) := by decide
/-- No two rows of the table overlap. -/
theorem test_opcode_rows_disjoint :
    opcodeTable.Pairwise fun a b => a.pattern &&& b.mask ≠ b.pattern := by decide
theorem test_table_word_query : decodeTableWord 8 7 = some .query := by decide

/-! ## The functions, on the vectors -/

/-- V-D6: seed byte 0 is `a5`. -/
theorem test_decodeGrid_a5 : (decodeGrid (seedOfPort (0xa5#256 <<< 248))).bits =
    0x8000000000000000400000000000000080000000000000004000000000000000#256 := by decide +kernel
/-- V-D10: HASHB. -/
theorem test_decodeGrid_hashB : (decodeGrid (seedOfPort hashB)).bits =
    0xd3cf037082878c83254eabd008594e85e747013f9b5c8ec2ab5452c195baad8d#256 := by decide +kernel
/-- S2 on HASHB. -/
theorem test_encodeGrid_hashB : encodeGrid (decodeGrid (seedOfPort hashB)) = seedOfPort hashB := by decide +kernel
/-- V-E8, V-E9: 115 ones score 8, 116 score 9. -/
theorem test_evenScore_115_116 : evenScoreOf 115 = 8 ∧ evenScoreOf 116 = 9 := by decide
/-- V-E13: HASHA has 123 ones. -/
theorem test_popcount_hashA : popcount (seedOfPort hashA) = 123 := by decide +kernel
/-- V-P13: HASHB; its grid is V-D10. -/
theorem test_countPassages_hashB : countPassages
    { bits := 0xd3cf037082878c83254eabd008594e85e747013f9b5c8ec2ab5452c195baad8d } = 6 := by decide +kernel
/-- V-P5: a region across the seam; grid as printed there. -/
theorem test_countPassages_seam : countPassages
    { bits := 0x7ffffffffffffffe7fffffffffffffff7fffffffffffffff7fffffffffffffff } = 1 := by decide +kernel
/-- V-C7: HASHB. -/
theorem test_crown_hashB : crown
    { bits := 0xd3cf037082878c83254eabd008594e85e747013f9b5c8ec2ab5452c195baad8d } = (5, 1) := by decide +kernel
/-- V-C8: SYM. -/
theorem test_crown_sym : crown (decodeGrid (seedOfPort symPort)) = (64, 2) := by decide +kernel
/-- V-T5. -/
theorem test_crownText_3_30 : crownText 3 30 = [0x33, 0x3A, 0x33, 0x30] := by decide
/-- V-T1, V-T2: `5.625`, `22.5`, `45`, `354.375`. -/
theorem test_angleText : angleText 1 = [0x35, 0x2E, 0x36, 0x32, 0x35] ∧ angleText 4 = [0x32, 0x32, 0x2E, 0x35] ∧
    angleText 8 = [0x34, 0x35] ∧ angleText 63 = [0x33, 0x35, 0x34, 0x2E, 0x33, 0x37, 0x35] := by decide
/-- R138: "The sum of their lengths is `364` bytes." -/
theorem test_angleText_sum : ((List.finRange 64).map fun s => (angleText s).length).sum = 364 := by decide +kernel
/-- V-T4: the last line of HASHB, `b410ff61f20015ad`. -/
theorem test_hex16_hashB : hex16 (seedOfPort hashB) 3 =
    [0x62, 0x34, 0x31, 0x30, 0x66, 0x66, 0x36, 0x31, 0x66, 0x32, 0x30, 0x30, 0x31, 0x35, 0x61, 0x64] := by
  decide +kernel
/-- V-A5: `DOC_LEN = 1655` for HASHA. -/
theorem test_docLength_hashA : docLength tcfg (seedOfPort hashA) tfrags = 1655 := by decide +kernel
/-- V-A6: HASHB begins `H`, `{`, `R(0)[awh;bk;cwh;dwh;]`. -/
theorem test_document_start_hashB :
    (assemble tcfg (seedOfPort hashB) (decodeGrid (seedOfPort hashB)) tfrags).take 23 =
    [0x48, 0x7B, 0x52, 0x28, 0x30, 0x29, 0x5B, 0x61, 0x77, 0x68, 0x3B, 0x62, 0x6B, 0x3B, 0x63, 0x77, 0x68, 0x3B,
      0x64, 0x77, 0x68, 0x3B, 0x5D] := by decide +kernel

/-! ## One step of each command -/

/-- R160, V-F5. -/
theorem test_nop_keeps_status : (after (exec .nop (loaded zeroSeed))).status = 0x01 := by decide +kernel
/-- R90: `STATUS = 0x01`; V-D15: also from `STATUS = 0x3F`. -/
theorem test_ldseed_status : (after (exec .ldseed (base hashB))).status = 0x01 ∧
    (after (exec .ldseed (base hashB))).seed.get 1 = 0x78 := by decide +kernel
/-- V-D14. -/
theorem test_decode_no_seed : (after (exec .decode (base 0))).status = 0x80 ∧
    (after (exec .decode (base 0))).err = 0x02 ∧ (after (exec .decode (base 0))).errCmd = 0x02 := by decide +kernel
/-- P1: after DECODE `STATUS = 0x03`. -/
theorem test_decode_status : (after (exec .decode (loaded zeroSeed))).status = 0x03 := by decide +kernel
/-- V-E3, V-E18: ALT scores 10, label `1.0`, `STATUS` goes to `0x05`. -/
theorem test_even_alt : (after (exec .even (loaded altSeed))).evenScore = 10 ∧
    (after (exec .even (loaded altSeed))).evenLabel = #v[0x31, 0x2E, 0x30] ∧
    (after (exec .even (loaded altSeed))).status = 0x05 := by decide +kernel
/-- V-P16: PASS after LDSEED without DECODE. -/
theorem test_pass_no_grid : (after (exec .pass (loaded zeroSeed))).status = 0x81 ∧
    (after (exec .pass (loaded zeroSeed))).err = 0x03 := by decide +kernel
/-- V-P9: ALT has 32 passages. -/
theorem test_pass_alt : (after (exec .pass (gridded altSeed))).passages = 32 := by decide +kernel
/-- V-C3: ALT gives `63:64`. -/
theorem test_crown_alt : (after (exec .crown (gridded altSeed))).crownTxt = #v[0x36, 0x33, 0x3A, 0x36, 0x34] ∧
    (after (exec .crown (gridded altSeed))).crownTxtLen = 5 := by decide +kernel
/-- V-C16. -/
theorem test_crown_no_grid : (after (exec .crown (loaded zeroSeed))).err = 0x03 ∧
    (after (exec .crown (loaded zeroSeed))).errCmd = 0x05 := by decide +kernel
/-- V-A1, V-A11: ZERO gives 1532 bytes, the last one `T`, and `STATUS = 0x23`. -/
theorem test_asm_zero : (after (exec .asm (gridded zeroSeed))).docLen = 1532 ∧
    (after (exec .asm (gridded zeroSeed))).doc.read 1531 = some 0x54 ∧
    (after (exec .asm (gridded zeroSeed))).status = 0x23 := by decide +kernel
/-- V-A13: without fragments 0 and 9 the lowest is reported, and before an overflow. -/
theorem test_asm_missing : (after (exec .asm { gridded zeroSeed with
    frags := (tfrags.set 9 none).set 0 none, cfg := { tcfg with docMaxLessOne := 0 } })).err = 0x04 := by decide +kernel
/-- P4 (with `seed_in` HASHB and no fragment 4): `STATUS = 0x9F`, `ERR = 0x44`, `ERR_CMD = 0x07`. -/
theorem test_query_missing : (after (exec .query { base hashB with frags := tfrags.set 4 none })).status = 0x9F ∧
    (after (exec .query { base hashB with frags := tfrags.set 4 none })).err = 0x44 ∧
    (after (exec .query { base hashB with frags := tfrags.set 4 none })).errCmd = 0x07 := by decide +kernel
/-- QUERY runs as the first command after reset; the empty store is then missing fragment 0 (R161, R171). -/
theorem test_query_first_after_reset : (after (step (State.reset.withFetchWord 8 7))).status = 0x9F ∧
    (after (step (State.reset.withFetchWord 8 7))).err = 0x04 := by decide +kernel
/-- V-F1, V-F2. -/
theorem test_illegal_then_halted : (after (takeCommand 0x10 (base 0))).errCmd = 0x10 ∧
    after (takeCommand 0x07 (after (takeCommand 0x10 (base 0)))) = after (takeCommand 0x10 (base 0)) := by
  decide +kernel
/-- V-F3: reset out of the halt. -/
theorem test_reset_clears_halt : (after (step { halted with host := [.assertReset] })).status = 0x00 ∧
    (after (step { halted with host := [.assertReset] })).errCmd = 0x00 := by decide +kernel

/-! ## Listings (R76) -/

theorem test_listing_command : parseLine [' ', 'A', 'S', 'M', ' ', ';', 'x'] = .ok (some (.command .asm)) := by decide
theorem test_listing_frag : parseLine ['.', 'f', 'r', 'a', 'g', ' ', '9', ' ', '"', '3', '=', '"'] =
    .ok (some (.frag 9 [0x33, 0x3D])) := by decide
theorem test_listing_lower_case_refused : parseLine ['a', 's', 'm'] = .error .unknownWord := by decide
theorem test_listing_short_seed_refused : parseLine ['.', 's', 'e', 'e', 'd', ' ', '0', '0'] = .error .badSeed := by decide
/-- P4's listing: encoding `07 00`. -/
theorem test_listing_encoding : listingEncoding [.reset, .nofrag 4, .seed hashB, .command .query, .command .nop] =
    [0x07, 0x00] := by decide

end Sys2Proof.Tests
end

