-- ==== Sys2Proof/Tests/Witness0.lean ====
section
/-! SUPPORT. Tests/Witness0.lean: for every obligation with hypotheses, a concrete state and operands that meet them,
clause by clause, at boundary values. -/

-- One thread: many theorems waiting for the kernel at once would each hold a stack.
set_option Elab.async false

namespace Sys2Proof.Tests

open Sys2Proof.Machine

/-- The state `s` with the host's next action `a`. -/
def pending (s : State) (a : HostAction) : State := { s with host := [a] }

/-- The store without fragment 4, as in P4. -/
def lacking4 : FragStore := tfrags.set 4 none

/-- A grid whose rows alternate `0,1,0,1,...`. -/
def altGrid : Grid := Grid.ofFn fun _ c => decide (c.val % 2 = 1)

theorem complete_tfrags : complete tfrags := by decide
theorem lowestAbsent_lacking4 : lowestAbsent lacking4 4 := by decide
theorem lowestAbsent_first : lowestAbsent (Vector.replicate 10 none) 0 := by decide
theorem lowestAbsent_last : lowestAbsent (tfrags.set 9 none) 9 := by decide

theorem witness_IllegalWordsRaiseIllegalCmd :
    (0x08 ≤ (0x08 : Byte).toNat ∧ (base 0).fault = false) ∧ (0x08 ≤ (0xFF : Byte).toNat ∧ halted.fault = true) ∧
    (0x07 : Byte) ≠ 0x00 := by decide

theorem witness_StepRunsTheOfferedCommand :
    (pending (base 0) (.command 0x00)).host = .command 0x00 :: [] ∧ decodeWord 0x00 = .ok .nop ∧
    (pending (base 0) (.command 0x07)).host = .command 0x07 :: [] ∧ decodeWord 0x07 = .ok .query ∧
    (pending (base 0) (.command 0x08)).host = .command 0x08 :: [] ∧ 0x08 ≤ (0x08 : Byte).toNat ∧
    (pending (base 0) (.command 0x08)).fault = false ∧
    (pending halted (.command 0xFF)).host = .command 0xFF :: [] ∧ 0x08 ≤ (0xFF : Byte).toNat ∧
    (pending halted (.command 0xFF)).fault = true := by decide

theorem witness_IdleBlockKeepsItsState : (base 0).host = [] := rfl

theorem witness_HostInputsChangeOnlyThemselves :
    (pending (base 0) (.setSeedIn hashA)).host = .setSeedIn hashA :: [] ∧
    (pending (base 0) (.setDocAddr 7)).host = .setDocAddr 7 :: [] ∧
    (pending (base 0) (.setFragment 9 none)).host = .setFragment 9 none :: [] := ⟨rfl, rfl, rfl⟩

theorem witness_DisturbedCommandsStopOnlyWhereTheyRead :
    (∃ s : State, s.host = .disturbed 0x01 (.seedMoves 1) :: [] ∧ s.fault = false) ∧
    (∃ s : State, s.host = .disturbed 0x02 (.seedMoves 1) :: [] ∧ (0x02 : Byte) ≠ 0x01 ∧ (0x02 : Byte) ≠ 0x07) ∧
    (∃ s : State, s.host = .disturbed 0x06 (.storeChanges lacking4) :: [] ∧ s.fault = false) ∧
    (∃ s : State, s.host = .disturbed 0x07 (.storeChanges lacking4) :: [] ∧ s.fault = true) ∧
    (∃ s : State, s.host = .disturbed 0x06 .storeSilent :: [] ∧ s.fault = false ∧ s.seedV = true ∧ s.gridV = true) ∧
    (∃ s : State, s.host = .disturbed 0x06 .storeSilent :: [] ∧ (0x06 : Byte) ≠ 0x07 ∧
      ¬ ((0x06 : Byte) = 0x06 ∧ s.seedV = true ∧ s.gridV = true)) :=
  ⟨⟨pending (base 0) (.disturbed 0x01 (.seedMoves 1)), rfl, rfl⟩,
    ⟨pending (base 0) (.disturbed 0x02 (.seedMoves 1)), rfl, by decide, by decide⟩,
    ⟨pending (base 0) (.disturbed 0x06 (.storeChanges lacking4)), rfl, rfl⟩,
    ⟨pending halted (.disturbed 0x07 (.storeChanges lacking4)), rfl, rfl⟩,
    ⟨pending (gridded zeroSeed) (.disturbed 0x06 .storeSilent), rfl, rfl, rfl, rfl⟩,
    ⟨pending (loaded zeroSeed) (.disturbed 0x06 .storeSilent), rfl, by decide, by decide⟩⟩

theorem witness_DutifulHostNeverStopsTheMachine :
    ∀ w d rest, (pending (base 0) (.disturbed 0x07 .rst)).host = .disturbed w d :: rest → d = .rst := by
  intro w d rest h
  simp only [pending, List.cons.injEq, HostAction.disturbed.injEq] at h
  exact h.1.2.symm

theorem witness_AssertedResetReturnsFromEveryState :
    (pending halted .assertReset).host = .assertReset :: [] ∧
    ∃ w, (pending (base 0) (.disturbed 0x07 .rst)).host = .disturbed w .rst :: [] := ⟨rfl, 0x07, rfl⟩

theorem witness_OnlyResetClearsFault :
    step (pending halted .assertReset) = .next (after (step (pending halted .assertReset))) ∧
    (pending halted .assertReset).fault = true ∧
    (after (step (pending halted .assertReset))).fault = false := ⟨rfl, rfl, rfl⟩

theorem witness_HaltedBlockIgnoresEveryCommand : halted.fault = true := rfl

/-- One state for each branch of the chain of R176. -/
theorem witness_FaultTestsAreMadeInTheFixedOrder :
    halted.fault = true ∧ ((base 0).fault = false ∧ 0x08 ≤ (0x08 : Byte).toNat) ∧
    (¬ 0x08 ≤ (0x06 : Byte).toNat ∧ (base 0).seedV = false) ∧
    ((loaded zeroSeed).seedV = true ∧ (loaded zeroSeed).gridV = false) ∧
    lowestAbsent { gridded zeroSeed with frags := lacking4 }.frags 4 ∧
    (complete (gridded zeroSeed).frags ∧
      ¬ docLength tcfg (gridded zeroSeed).seed tfrags > (gridded zeroSeed).cfg.docMax) ∧
    docLength tcfg zeroSeed tfrags > { tcfg with docMaxLessOne := 1530 }.docMax := by decide +kernel

theorem base_errInv (v : BitVec 256) : (base v).ErrInv :=
  ⟨Nat.zero_le _, Nat.zero_le _, fun _ => rfl, fun _ => ⟨rfl, rfl, rfl⟩, fun h => (nomatch h)⟩

theorem pending_errInv (v : BitVec 256) (a : HostAction) : (pending (base v) a).ErrInv :=
  ⟨Nat.zero_le _, Nat.zero_le _, fun _ => rfl, fun _ => ⟨rfl, rfl, rfl⟩, fun h => (nomatch h)⟩

theorem witness_ErrorRegistersAreWrittenOncePerReset :
    (pending (base 0) (.command 0x02)).ErrInv ∧
    step (pending (base 0) (.command 0x02)) = .next (after (step (pending (base 0) (.command 0x02)))) ∧
    (after (step (pending (base 0) (.command 0x02)))).errCode ≠ (pending (base 0) (.command 0x02)).errCode :=
  ⟨pending_errInv 0 _, rfl, by decide +kernel⟩

theorem witness_LdseedLoadsTheSeedAndClearsTheDerived :
    halted.fault = true ∧ (base hashA).fault = false ∧ (0 : Nat) < 8 ∧ (7 : Nat) < 8 := by decide

theorem witness_DecodeWritesTheGridOfTheSeed :
    halted.fault = true ∧ ((base 0).fault = false ∧ (base 0).seedV = false) ∧
    ((loaded altSeed).fault = false ∧ (loaded altSeed).seedV = true) := ⟨rfl, ⟨rfl, rfl⟩, rfl, rfl⟩

theorem witness_EvenWritesScoreAndLabel :
    halted.fault = true ∧ ((base 0).fault = false ∧ (base 0).seedV = false) ∧
    ((loaded altSeed).fault = false ∧ (loaded altSeed).seedV = true ∧ evenScoreOf (popcount altSeed) = 10) ∧
    ((loaded zeroSeed).seedV = true ∧ evenScoreOf (popcount zeroSeed) ≠ 10) := by decide +kernel

theorem witness_PassWritesThePassageCount :
    halted.fault = true ∧ ((loaded zeroSeed).fault = false ∧ (loaded zeroSeed).gridV = false) ∧
    ((gridded altSeed).fault = false ∧ (gridded altSeed).gridV = true) := ⟨rfl, ⟨rfl, rfl⟩, rfl, rfl⟩

theorem witness_CrownWritesItsFourRegisters :
    halted.fault = true ∧ ((loaded zeroSeed).fault = false ∧ (loaded zeroSeed).gridV = false) ∧
    ((gridded altSeed).fault = false ∧ (gridded altSeed).gridV = true) := ⟨rfl, ⟨rfl, rfl⟩, rfl, rfl⟩

theorem witness_AsmWritesTheDocumentOrFaults :
    halted.fault = true ∧ ((base 0).fault = false ∧ (base 0).seedV = false) ∧
    ((loaded zeroSeed).seedV = true ∧ (loaded zeroSeed).gridV = false) ∧
    ((gridded zeroSeed).seedV = true ∧ (gridded zeroSeed).gridV = true ∧
      lowestAbsent { gridded zeroSeed with frags := lacking4 }.frags 4) ∧
    (complete tfrags ∧ docLength { tcfg with docMaxLessOne := 1530 } zeroSeed tfrags >
      { tcfg with docMaxLessOne := 1530 }.docMax) ∧
    docLength { tcfg with docMaxLessOne := 1531 } (gridded zeroSeed).seed tfrags ≤
      { tcfg with docMaxLessOne := 1531 }.docMax := by decide +kernel

theorem witness_AsmWritesTheDocument_grid : (gridded zeroSeed).grid = decodeGrid (gridded zeroSeed).seed := rfl

theorem witness_AsmStoresOnlyInsideTheDocument :
    exec .asm (base 0) = .next (after (exec .asm (base 0))) ∧ (after (exec .asm (base 0))).fault = true ∧
    exec .asm (gridded zeroSeed) = .next (after (exec .asm (gridded zeroSeed))) ∧
    docLength tcfg zeroSeed tfrags ≤ 1532 := ⟨rfl, rfl, rfl, by decide +kernel⟩

theorem witness_QueryRunsTheWholePipeline :
    halted.fault = true ∧ (base hashA).fault = false ∧
    (complete (base hashA).frags ∧ docLength tcfg (seedOfPort hashA) tfrags ≤ tcfg.docMax) ∧
    lowestAbsent { base hashA with frags := lacking4 }.frags 4 ∧
    docLength tcfg (seedOfPort hashA) tfrags > { tcfg with docMaxLessOne := 0 }.docMax := by decide +kernel

theorem witness_QueryEqualsTheSplitSequence :
    (base hashA).fault = false ∧ (after (exec .query (base hashA))).fault = false ∧
    (after (exec .query { base hashA with frags := lacking4 })).fault = true := by decide +kernel

theorem witness_RegistersChangeOnlyUnderTheirCommands :
    exec .ldseed (base hashA) = .next (after (exec .ldseed (base hashA))) ∧
    (after (exec .ldseed (base hashA))).seed ≠ (base hashA).seed ∧
    (after (exec .decode (loaded altSeed))).grid ≠ (loaded altSeed).grid ∧
    (after (exec .even (loaded altSeed))).evenScore ≠ (loaded altSeed).evenScore ∧
    (after (exec .pass (gridded altSeed))).passages ≠ (gridded altSeed).passages ∧
    (after (exec .crown (gridded altSeed))).crownRank ≠ (gridded altSeed).crownRank ∧
    (after (exec .asm (gridded altSeed))).doc ≠ (gridded altSeed).doc ∧
    (after (exec .asm (gridded altSeed))).docLen ≠ (gridded altSeed).docLen ∧
    (after (exec .ldseed (gridded altSeed))).gridV ≠ (gridded altSeed).gridV ∧
    (after (exec .even (loaded altSeed))).evenV ≠ (loaded altSeed).evenV ∧
    (after (exec .pass (gridded altSeed))).passV ≠ (gridded altSeed).passV ∧
    (after (exec .crown (gridded altSeed))).crownV ≠ (gridded altSeed).crownV ∧
    (after (exec .asm (gridded altSeed))).docV ≠ (gridded altSeed).docV :=
  And.intro rfl (by decide +kernel)

theorem witness_RepeatedCommandChangesNothingVisible :
    exec .ldseed (base hashA) = .next (after (exec .ldseed (base hashA))) ∧
    exec .ldseed (after (exec .ldseed (base hashA))) =
      .next (after (exec .ldseed (after (exec .ldseed (base hashA))))) := ⟨rfl, rfl⟩

theorem witness_PassageCornerCases :
    (∀ c, ({ bits := 0xffffffffffffffff#256 <<< 192 } : Grid).cell 0 c = true) ∧
    (∀ c, ({ bits := 0xffffffffffffffff } : Grid).cell 3 c = true) ∧
    (∀ r c, Grid.blank.cell r c = false) := by decide +kernel

theorem blank_isPal (s : Sector) (L : Nat) : IsPal Grid.blank s L := fun r k _ => by
  have h (x : Cell) := Grid.marked_blank x
  simp only [Grid.marked] at h
  rw [h (r, _), h (r, _)]

theorem witness_CrownFacts :
    (4 ≤ 64 ∧ IsPal Grid.blank 0 4 ∧ IsPal Grid.blank 63 64) ∧ (crown Grid.blank).1 = 64 ∧
    (∀ r c c', Grid.blank.cell r c = Grid.blank.cell r c') ∧
    (crown { bits := 0x00ff00ff00ff00ff0f0f0f0f0f0f0f0f33333333333333335555555555555555 }).1 = 0 :=
  ⟨⟨by decide, blank_isPal _ _, blank_isPal _ _⟩, by decide +kernel, by decide +kernel, by decide +kernel⟩

theorem witness_CrownOfConstantAndAlternatingRows :
    (∀ r c c', Grid.blank.cell r c = Grid.blank.cell r c') ∧
    (∀ r (c : Sector), altGrid.cell r c = decide (c.val % 2 = 1)) :=
  ⟨by decide +kernel, fun r c => Grid.cell_ofFn _ r c⟩

theorem witness_CrownTextForms : (2 : Nat) ≠ 0 ∧ (2 ≤ 2 ∧ 2 ≤ 64 ∧ 1 ≤ 1 ∧ 1 ≤ 64) ∧ (2 ≤ 64 ∧ 64 ≤ 64) := by decide

theorem witness_AngleTextsAreExactDecimals :
    (0 : Sector).val * 5625 % 1000 = 0 ∧ (63 : Sector).val * 5625 % 1000 ≠ 0 := by decide

/-- After reset with any inputs, and after a seed load, the invariants of R34 hold. -/
theorem base_inv (v : BitVec 256) : (base v).Inv := State.Inv.of_traits_invalid (fun h => nomatch h) rfl rfl rfl rfl
  rfl (iff_of_true rfl rfl)

theorem gridded_inv (S : Seed) : (gridded S).Inv :=
  State.Inv.of_traits_invalid (fun _ => ⟨rfl, rfl⟩) rfl rfl rfl rfl rfl (iff_of_true rfl rfl)

theorem pending_gridded_inv (S : Seed) (a : HostAction) : (pending (gridded S) a).Inv :=
  State.Inv.of_traits_invalid (fun _ => ⟨rfl, rfl⟩) rfl rfl rfl rfl rfl (iff_of_true rfl rfl)

theorem witness_EveryStepKeepsTheRegisterInvariant :
    (pending (gridded altSeed) (.command 0x04)).Inv ∧
    step (pending (gridded altSeed) (.command 0x04)) =
      .next (after (step (pending (gridded altSeed) (.command 0x04)))) := ⟨pending_gridded_inv _ _, rfl⟩

theorem witness_RegisterInvariantHoldsInEveryRun : (base hashA).reached :=
  ⟨tcfg, hashA, tfrags, 0, [], .refl⟩

theorem pending_docInv (v : BitVec 256) (a : HostAction) : (pending (base v) a).DocInv :=
  ⟨rfl, fun _ hx => (nomatch hx), Nat.zero_le _⟩

theorem witness_EveryStepKeepsTheDocumentInsideItsBuffer :
    (pending (base hashA) (.command 0x07)).DocInv ∧
    step (pending (base hashA) (.command 0x07)) =
      .next (after (step (pending (base hashA) (.command 0x07)))) := ⟨pending_docInv _ _, rfl⟩

/-- One clause each: the wide ports with a value, and `doc_byte` at the last offset of a document and past it. -/
theorem witness_PortsHaveAValueExactlyWhenValid :
    (loaded altSeed).ports.seedOut = some (seedBits altSeed) ∧
    (gridded altSeed).ports.gridOut = some (decodeGrid altSeed).bits ∧
    (after (exec .even (loaded altSeed))).ports.evenLabel = some 0x312E30 ∧
    (after (exec .asm { gridded zeroSeed with docAddr := 1531 })).ports.docByte = some 0x54 ∧
    (after (exec .asm { gridded zeroSeed with docAddr := 1532 })).ports.docByte = none ∧ (base 0).Inv := by
  refine ⟨rfl, rfl, ?_, ?_, ?_, base_inv 0⟩ <;> decide +kernel

/-- The two states differ: one holds another unread seed and has drawn more free values. -/
theorem witness_UnspecifiedContentsAreNeverRead :
    (base 0).Inv ∧ (base 0).SameVisible { base 0 with seed := altSeed, draws := 5 } ∧
    base 0 ≠ { base 0 with seed := altSeed, draws := 5 } :=
  ⟨base_inv 0,
    State.SameVisible.unread_seed rfl altSeed 5,
    fun h => absurd (congrArg State.draws h) (by decide)⟩

/-- A run whose one action is QUERY. -/
def queryRun : State := State.launch tcfg hashA tfrags 0 [.command 0x07]

theorem witness_ValidDocumentIsOfTheStoreAtItsAsm :
    State.RunWith (some tfrags) (after (step queryRun)) ∧ (after (step queryRun)).docV = true :=
  ⟨.assembled (.launch tcfg hashA tfrags 0 [.command 0x07]) ⟨rfl, 0x07, [], .inl rfl, .inr rfl⟩ rfl, by decide +kernel⟩

end Sys2Proof.Tests
end

section
/-! PROOFS. `decode` and `encode` on the cells (10_state.md R42), as many wall cells as one bits (40 R94), and the length
of a document in advance (44 R142): what the state invariants of 10_state.md R34 rest on. -/

namespace Sys2Proof

/-- The two columns that seed byte `i` supplies (40_seed_and_decode.md R93). -/
abbrev highCol (i : Fin 32) : Sector := ⟨2 * i.val, by omega⟩
abbrev lowCol (i : Fin 32) : Sector := ⟨2 * i.val + 1, by omega⟩

/-- Every column is one of the two of some seed byte. -/
theorem sector_cases (c : Sector) : ∃ i, c = highCol i ∨ c = lowCol i :=
  ⟨⟨c.val / 2, by omega⟩, by simp only [Fin.ext_iff]; omega⟩

@[simp] theorem decodeGrid_cell_high (S : Seed) (i : Fin 32) (r : Ring) :
    (decodeGrid S).cell r (highCol i) = (S.get i).getLsbD (7 - r.val) := by
  have hi : 2 * i.val / 2 = i.val := by omega
  simp [decodeGrid, hi]

@[simp] theorem decodeGrid_cell_low (S : Seed) (i : Fin 32) (r : Ring) :
    (decodeGrid S).cell r (lowCol i) = (S.get i).getLsbD (3 - r.val) := by
  have hi : (2 * i.val + 1) / 2 = i.val := by omega
  simp [decodeGrid, hi]

/-- The byte with the high nibble `h` and the low nibble `l`, the bit of row 0 the most significant of each. -/
def nibbleSum (h l : Ring → Bool) : Nat := ∑ r : Ring, ((h r).toNat * 2 ^ (7 - r.val) + (l r).toNat * 2 ^ (3 - r.val))

theorem nibbleSum_lt : ∀ h l : Ring → Bool, nibbleSum h l < 256 := by decide +kernel

/-- The nibbles are read back. -/
theorem nibbleSum_bits : ∀ (h l : Ring → Bool) (r : Ring),
    (BitVec.ofNat 8 (nibbleSum h l)).getLsbD (7 - r.val) = h r ∧
    (BitVec.ofNat 8 (nibbleSum h l)).getLsbD (3 - r.val) = l r := by decide +kernel

/-- A byte is the sum of its nibbles' bits. -/
theorem nibbleSum_of_byte : ∀ b : Byte,
    BitVec.ofNat 8 (nibbleSum (fun r => b.getLsbD (7 - r.val)) fun r => b.getLsbD (3 - r.val)) = b := by decide +kernel

theorem encodeGrid_get (G : Grid) (i : Fin 32) : (encodeGrid G).get i =
    BitVec.ofNat 8 (nibbleSum (fun r => G.cell r (highCol i)) fun r => G.cell r (lowCol i)) := by
  rw [nibbleSum, Fin.sum_univ_def]
  simp [encodeGrid, Vector.get_eq_getElem, encodeGridByte]

theorem encodeGrid_decodeGrid (S : Seed) : encodeGrid (decodeGrid S) = S := by
  refine Vector.ext fun i hi => ?_
  have h := encodeGrid_get (decodeGrid S) ⟨i, hi⟩
  simpa only [decodeGrid_cell_high, decodeGrid_cell_low, nibbleSum_of_byte, Vector.get_eq_getElem] using h

theorem decodeGrid_encodeGrid (G : Grid) : decodeGrid (encodeGrid G) = G := by
  refine Grid.ext_cell fun r c => ?_
  obtain ⟨i, rfl | rfl⟩ := sector_cases c
  · rw [decodeGrid_cell_high, encodeGrid_get]
    exact (nibbleSum_bits _ _ r).1
  · rw [decodeGrid_cell_low, encodeGrid_get]
    exact (nibbleSum_bits _ _ r).2

/-- Settles O30: the two nibbles of a byte are the bits of two columns, and each is read back from the other. -/
theorem seedAndGridDetermineEachOther : Obligations.SeedAndGridDetermineEachOther := by
  refine ⟨fun G i => ?_, encodeGrid_decodeGrid, decodeGrid_encodeGrid⟩
  rw [encodeGrid_get, BitVec.toNat_ofNat, Nat.mod_eq_of_lt (nibbleSum_lt _ _)]
  rfl

/-! ## As many wall cells as one bits -/

/-- A sum over the columns goes over the two columns of each seed byte. -/
theorem sum_sector (f : Sector → Nat) : ∑ c, f c = ∑ i : Fin 32, (f (highCol i) + f (lowCol i)) := by
  rw [← (finProdFinEquiv (m := 32) (n := 2)).sum_comp f, Fintype.sum_prod_type]
  refine Finset.sum_congr rfl fun i _ => ?_
  rw [Fin.sum_univ_two]
  congr 2 <;> ext <;> simp [finProdFinEquiv, Nat.add_comm]

theorem popcountByte_eq_sum : ∀ b : Byte, popcountByte b =
    ∑ r : Ring, ((b.getLsbD (7 - r.val)).toNat + (b.getLsbD (3 - r.val)).toNat) := by decide +kernel

theorem popcountByte_le (b : Byte) : popcountByte b ≤ 8 := List.countP_le_length

theorem popcount_eq_sum (S : Seed) : popcount S = ∑ i : Fin 32, popcountByte (S.get i) := by
  rw [Fin.sum_univ_def, popcount]
  congr 1
  refine List.ext_getElem (by simp) fun i h _ => ?_
  simp [Vector.get_eq_getElem]

theorem popcount_le (S : Seed) : popcount S ≤ 256 := by
  rw [popcount_eq_sum]
  exact (Finset.sum_le_card_nsmul _ _ 8 fun i _ => popcountByte_le _).trans (by simp)

/-- As many wall cells as one bits (40_seed_and_decode.md R94 (e)). -/
theorem sum_cell_decodeGrid (S : Seed) :
    ∑ r : Ring, ∑ c : Sector, ((decodeGrid S).cell r c).toNat = popcount S := by
  simp only [sum_sector, decodeGrid_cell_high, decodeGrid_cell_low, popcount_eq_sum, popcountByte_eq_sum]
  exact Finset.sum_comm

/-! ## The length of a document -/

theorem length_flatMap_finRange {α : Type} (n : Nat) (f : Fin n → List α) :
    ((List.finRange n).flatMap f).length = ∑ i, (f i).length := by
  rw [List.length_flatMap, Fin.sum_univ_def]

/-- The 64 angle texts have 364 bytes (44_assemble.md R142). -/
theorem sum_length_angleText : ∑ s : Sector, (angleText s).length = 364 := by decide +kernel

@[simp] theorem hex16_length (S : Seed) (j : Fin 4) : (hex16 S j).length = 16 := by
  simp [hex16, hexByte]

/-- One cell's colour token, counted without subtraction. -/
theorem colourToken_length (cfg : Config) (b : Bool) :
    (colourToken cfg b).length + b.toNat * cfg.tokBlack.length =
      cfg.tokBlack.length + b.toNat * cfg.tokWhite.length := by
  cases b <;> simp [colourToken, Nat.add_comm]

/-- The colour tokens of a decoded grid: one white token for each one bit, a black one for each zero bit. -/
theorem sum_length_colourToken (cfg : Config) (S : Seed) :
    ∑ s : Sector, ∑ r : Ring, (colourToken cfg ((decodeGrid S).cell r s)).length =
      (256 - popcount S) * cfg.tokBlack.length + popcount S * cfg.tokWhite.length := by
  have hcells : ∑ s : Sector, ∑ r : Ring, ((decodeGrid S).cell r s).toNat = popcount S :=
    Finset.sum_comm.trans (sum_cell_decodeGrid S)
  have hsum := Finset.sum_congr (s₁ := (Finset.univ : Finset Sector)) rfl fun s _ =>
    Finset.sum_congr (s₁ := (Finset.univ : Finset Ring)) rfl fun r _ =>
      colourToken_length cfg ((decodeGrid S).cell r s)
  simp only [Finset.sum_add_distrib, ← Finset.sum_mul, hcells] at hsum
  have hle := Nat.mul_le_mul_right cfg.tokBlack.length (popcount_le S)
  simp only [Finset.sum_const, Finset.card_univ, Fintype.card_fin, smul_eq_mul] at hsum
  rw [Nat.sub_mul]
  omega

/-- The length computed in advance is the document's when the grid is the seed's (44_assemble.md R142). -/
theorem assemble_length (cfg : Config) (S : Seed) (F : FragStore) :
    (assemble cfg S (decodeGrid S) F).length = docLength cfg S F := by
  have hangle := sum_length_angleText
  have hcolour := sum_length_colourToken cfg S
  simp only [assemble, docSector, docShape, docLine, List.length_append, length_flatMap_finRange,
    Finset.sum_add_distrib, hangle, hcolour, hex16_length]
  simp only [Finset.sum_const, Finset.card_univ, Fintype.card_fin, smul_eq_mul, Fin.sum_univ_four, docLength,
    FragStore.len]
  omega

end Sys2Proof
end

section
/-! PROOFS. Each operation of Machine/Ops.lean and of the commands, as a rule for a predicate of the state; what a step
does is then one case lemma, and an invariant is shown once per operation (10_state.md R27, R31, R34). -/

namespace Sys2Proof.Machine

/-- The body of QUERY up to its last step, the ASM (45_query_and_control.md R161). -/
def State.runTraits (s : State) : State := s.loadSeed.writeGrid.writeEven.writePassages.writeCrown

theorem runPipeline_eq (s : State) : s.runPipeline = s.runTraits.assembleDoc (encode .query) := rfl

/-- The body of LDSEED with the seed left open: what it keeps does not depend on the value on `seed_in`. -/
def State.takeSeed (s : State) (S : Seed) : State := { s.clearDerived with seed := S, seedV := true }

theorem loadSeed_eq (s : State) : s.loadSeed = s.takeSeed (seedOfPort s.seedIn) := rfl

/-- `P` is kept by the fault entry and by the writes of LDSEED, DECODE, EVEN, PASS and CROWN. -/
structure KeptByTraitWrites (P : State → Prop) : Prop where
  raise : ∀ s w k, P s → P (s.raise w k)
  takeSeed : ∀ s S, P s → P (s.takeSeed S)
  writeGrid : ∀ s, s.seedV = true → P s → P s.writeGrid
  writeEven : ∀ s, s.seedV = true → P s → P s.writeEven
  writePassages : ∀ s, s.gridV = true → P s → P s.writePassages
  writeCrown : ∀ s, s.gridV = true → P s → P s.writeCrown

/-- `P` is kept by the writes of ASM as well. -/
structure KeptByWrites (P : State → Prop) : Prop extends KeptByTraitWrites P where
  withdrawDoc : ∀ s, P s → P s.withdrawDoc
  storeDocument : ∀ s, s.seedV = true → s.gridV = true → complete s.frags → s.docLength ≤ s.cfg.docMax →
    P s → P s.storeDocument

section
variable {P : State → Prop} {s : State}

theorem KeptByTraitWrites.runTraits (h : KeptByTraitWrites P) (hs : P s) : P s.runTraits :=
  h.writeCrown _ rfl (h.writePassages _ rfl (h.writeEven _ rfl (h.writeGrid _ rfl (h.takeSeed _ _ hs))))

theorem KeptByTraitWrites.needSeed (h : KeptByTraitWrites P) (w : Byte) {f : State → State} (hs : P s)
    (hf : s.seedV = true → P (f s)) : P (s.needSeed w f) := by
  cases hv : s.seedV with
  | true => rw [needSeed_of_valid hv]; exact hf hv
  | false => rw [needSeed_of_invalid hv]; exact h.raise _ _ _ hs

theorem KeptByTraitWrites.needGrid (h : KeptByTraitWrites P) (w : Byte) {f : State → State} (hs : P s)
    (hf : s.gridV = true → P (f s)) : P (s.needGrid w f) := by
  cases hv : s.gridV with
  | true => rw [needGrid_of_valid hv]; exact hf hv
  | false => rw [needGrid_of_invalid hv]; exact h.raise _ _ _ hs

/-- The commands that assemble no document. -/
theorem KeptByTraitWrites.commandBody (h : KeptByTraitWrites P) {i : Instr} (hasm : i ≠ .asm) (hquery : i ≠ .query)
    (hs : P s) : P (commandBody i s) := by
  cases i with
  | nop => exact hs
  | ldseed => exact h.takeSeed _ _ hs
  | decode => exact h.needSeed _ hs fun hv => h.writeGrid _ hv hs
  | even => exact h.needSeed _ hs fun hv => h.writeEven _ hv hs
  | pass => exact h.needGrid _ hs fun hv => h.writePassages _ hv hs
  | crown => exact h.needGrid _ hs fun hv => h.writeCrown _ hv hs
  | asm => exact absurd rfl hasm
  | query => exact absurd rfl hquery

/-- A word that assembles no document: a command's or an illegal one. -/
theorem KeptByTraitWrites.wordBody (h : KeptByTraitWrites P) {w : Byte} (hasm : w ≠ encode .asm)
    (hquery : w ≠ encode .query) (hs : P s) : P (wordBody w s) := by
  rcases word_cases w with hw | ⟨i, rfl⟩
  · rw [wordBody_illegal w hw]
    exact h.raise _ _ _ hs
  · rw [wordBody_encode]
    exact h.commandBody (fun hi => hasm (by rw [hi])) (fun hi => hquery (by rw [hi])) hs

theorem KeptByWrites.assembleDoc (h : KeptByWrites P) (w : Byte) (hs : P s) : P (s.assembleDoc w) := by
  rcases assembleDoc_cases s w with ⟨-, he⟩ | ⟨-, -, he⟩ | ⟨id, -, -, -, he⟩ | ⟨-, -, -, -, he⟩ | ⟨hv, hg, hm, hn, he⟩
  · rw [he]; exact h.raise _ _ _ hs
  · rw [he]; exact h.raise _ _ _ hs
  · rw [he]; exact h.raise _ _ _ (h.withdrawDoc _ hs)
  · rw [he]; exact h.raise _ _ _ (h.withdrawDoc _ hs)
  · rw [he]; exact h.storeDocument _ hv hg (FragStore.firstMissing_eq_none.1 hm) hn hs

theorem KeptByWrites.commandBody (h : KeptByWrites P) (i : Instr) (hs : P s) : P (commandBody i s) := by
  by_cases hasm : i = .asm
  · rw [hasm]; exact h.assembleDoc _ hs
  · by_cases hquery : i = .query
    · rw [hquery]; exact h.assembleDoc _ (h.runTraits hs)
    · exact h.toKeptByTraitWrites.commandBody hasm hquery hs

theorem KeptByWrites.wordBody (h : KeptByWrites P) (w : Byte) (hs : P s) : P (wordBody w s) := by
  rcases word_cases w with hw | ⟨i, rfl⟩
  · rw [wordBody_illegal w hw]
    exact h.raise _ _ _ hs
  · rw [wordBody_encode]
    exact h.commandBody i hs

end

/-! ## A step -/

/-- The inputs of the block that its commands do not write: `seed_in`, the store, `doc_addr` and the host's list. -/
def State.withInputs (s : State) (v : BitVec 256) (F : FragStore) (a : BitVec 32) (host : List HostAction) : State :=
  { s with seedIn := v, frags := F, docAddr := a, host := host }

/-- The block is not halted and the host offers the word `w` next, disturbed or not. -/
def State.executesNext (s : State) (w : Byte) (rest : List HostAction) : Prop :=
  s.fault = false ∧ (s.host = .command w :: rest ∨ ∃ d, s.host = .disturbed w d :: rest)

theorem assemblesNext_iff {s : State} : s.assemblesNext ↔
    ∃ w rest, s.executesNext w rest ∧ (w = encode .asm ∨ w = encode .query) :=
  ⟨fun ⟨hf, w, rest, hh, hw⟩ => ⟨w, rest, ⟨hf, hh⟩, hw⟩, fun ⟨w, rest, ⟨hf, hh⟩, hw⟩ => ⟨hf, w, rest, hh, hw⟩⟩

theorem executesNext_word_unique {s : State} {w w' : Byte} {rest rest' : List HostAction}
    (h : s.executesNext w rest) (h' : s.executesNext w' rest') : w = w' := by
  obtain ⟨-, hh | ⟨d, hh⟩⟩ := h
  · simp only [State.executesNext, hh, List.cons.injEq, HostAction.command.injEq, reduceCtorEq, false_and,
      exists_false, or_false] at h'
    exact h'.2.1
  · simp only [State.executesNext, hh, List.cons.injEq, HostAction.disturbed.injEq, reduceCtorEq, false_and,
      false_or] at h'
    obtain ⟨-, d', ⟨hw, -⟩, -⟩ := h'
    exact hw

/-- `t` is `s` but for the inputs. -/
def State.InputsMoved (s t : State) : Prop := ∃ v F a host, t = s.withInputs v F a host

/-- All that a step can do besides a change of the inputs: the block executes a word, is reset, or keeps its state. -/
theorem step_effect_cases {s t : State} (h : step s = .next t) :
    (∃ w rest, s.executesNext w rest ∧ (wordBody w { s with host := rest }).InputsMoved t) ∨
    (s.resetNext ∧ s.hardReset.InputsMoved t) ∨
    ((∀ w rest, ¬ s.executesNext w rest) ∧ s.InputsMoved t) := by
  rcases step_cases h with ⟨hh, rfl⟩ | ⟨a, rest, hh, ha⟩
  · exact .inr (.inr ⟨by simp [State.executesNext, hh], _, _, _, _, rfl⟩)
  have word : ∀ w, (a = .command w ∨ ∃ d, a = .disturbed w d) →
      (State.unlessHalted { s with host := rest } (wordBody w)).InputsMoved t →
      (∃ w rest, s.executesNext w rest ∧ (wordBody w { s with host := rest }).InputsMoved t) ∨
      ((∀ w rest, ¬ s.executesNext w rest) ∧ s.InputsMoved t) := by
    intro w hw ht
    rcases s.fault.eq_false_or_eq_true with hf | hf
    · rw [unlessHalted_of_halted (s := { s with host := rest }) hf] at ht
      obtain ⟨v, F, d, host, rfl⟩ := ht
      exact .inr ⟨by simp [State.executesNext, hf], v, F, d, host, rfl⟩
    · rw [unlessHalted_of_running (s := { s with host := rest }) hf] at ht
      refine .inl ⟨w, rest, ⟨hf, ?_⟩, ht⟩
      rw [hh]
      exact hw.imp (fun h => by rw [h]) fun ⟨d, h⟩ => ⟨d, by rw [h]⟩
  rcases hostAct_cases ha with ⟨w, hw, rfl⟩ | ⟨w, v, hw, -, rfl⟩ | ⟨w, F, hw, -, rfl⟩ | ⟨hr, rfl⟩ | ⟨v, rfl, rfl⟩ |
    ⟨id, c, rfl, rfl⟩ | ⟨d, rfl, rfl⟩
  · exact (word w (hw.imp_right fun h => ⟨_, h⟩) ⟨_, _, _, _, rfl⟩).imp_right .inr
  · exact (word w (.inr ⟨_, hw⟩) ⟨_, _, _, _, rfl⟩).imp_right .inr
  · exact (word w (.inr ⟨_, hw⟩) ⟨_, _, _, _, rfl⟩).imp_right .inr
  · exact .inr (.inl ⟨⟨rest, hr.imp (fun h => by rw [hh, h]) fun ⟨w, h⟩ => ⟨w, by rw [hh, h]⟩⟩, _, _, _, _, rfl⟩)
  · exact .inr (.inr ⟨by simp [State.executesNext, hh], _, _, _, _, rfl⟩)
  · exact .inr (.inr ⟨by simp [State.executesNext, hh], _, _, _, _, rfl⟩)
  · exact .inr (.inr ⟨by simp [State.executesNext, hh], _, _, _, _, rfl⟩)

/-- `P` says nothing of the inputs. -/
def IgnoresInputs (P : State → Prop) : Prop := ∀ s v F a host, P s → P (s.withInputs v F a host)

theorem IgnoresInputs.moved {P : State → Prop} (h : IgnoresInputs P) {s t : State} (hst : s.InputsMoved t)
    (hs : P s) : P t := by
  obtain ⟨v, F, a, host, rfl⟩ := hst
  exact h _ _ _ _ _ hs

/-- What the writes of the commands keep, holds after reset and says nothing of the inputs is kept by every step. -/
theorem KeptByWrites.step {P : State → Prop} (h : KeptByWrites P) (hin : IgnoresInputs P)
    (hreset : ∀ s, P (State.hardReset s)) {s t : State} (hs : P s) (hstep : step s = .next t) : P t := by
  rcases step_effect_cases hstep with ⟨w, rest, -, ht⟩ | ⟨-, ht⟩ | ⟨-, ht⟩
  · exact hin.moved ht (h.wordBody w (hin s s.seedIn s.frags s.docAddr rest hs))
  · exact hin.moved ht (hreset s)
  · exact hin.moved ht hs

end Sys2Proof.Machine
end

section
/-! PROOFS. Each operation keeps the invariants of 10_state.md R34, R31 and R27; then every step does. -/

namespace Sys2Proof.Machine

/-! ## The registers hold the results -/

theorem toNat_writeEven_evenScore (s : State) : s.writeEven.evenScore.toNat = (evenness s.seed).1 := by
  have := evenScoreOf_le (popcount s.seed)
  rw [State.writeEven_evenScore, BitVec.toNat_ofNat, Nat.mod_eq_of_lt]
  simp only [evenness]
  omega

theorem toNat_writePassages_passages (s : State) : s.writePassages.passages.toNat = countPassages s.grid := by
  have := countPassages_le_64 s.grid
  rw [State.writePassages_passages, BitVec.toNat_ofNat, Nat.mod_eq_of_lt (by omega)]

theorem toNat_writeCrown_crownRank (s : State) : s.writeCrown.crownRank.toNat = (crown s.grid).1 := by
  have := crownRankOf_range s.grid
  rw [State.writeCrown_crownRank, BitVec.toNat_ofNat, Nat.mod_eq_of_lt]
  simp only [crown]
  omega

theorem toNat_writeCrown_crownQty (s : State) : s.writeCrown.crownQty.toNat = (crown s.grid).2 := by
  have := crownQtyOf_le s.grid (crownRankOf s.grid)
  rw [State.writeCrown_crownQty, BitVec.toNat_ofNat, Nat.mod_eq_of_lt]
  simp only [crown]
  omega

theorem toNat_writeCrown_crownTxtLen (s : State) :
    s.writeCrown.crownTxtLen.toNat = (crownText (crown s.grid).1 (crown s.grid).2).length := by
  have := crown_text_length_le s.grid
  rw [State.writeCrown_crownTxtLen, BitVec.toNat_ofNat, Nat.mod_eq_of_lt (by omega)]

/-- The bytes of `CROWN_TXT` below its length are the Crown string. -/
theorem some_writeCrown_crownTxt_get (s : State) (k : Fin 5) (hk : k.val < s.writeCrown.crownTxtLen.toNat) :
    some (s.writeCrown.crownTxt.get k) = (crownText (crown s.grid).1 (crown s.grid).2)[k.val]? := by
  rw [toNat_writeCrown_crownTxtLen] at hk
  rw [State.writeCrown_crownTxt, crownTxtOf_get, List.getElem?_eq_getElem hk, Option.getD_some]

/-- The Crown registers of one grid agree, `CROWN_TXT` below its length. -/
theorem writeCrown_crown_eq {s t : State} (hgrid : s.grid = t.grid) :
    s.writeCrown.crownRank = t.writeCrown.crownRank ∧ s.writeCrown.crownQty = t.writeCrown.crownQty ∧
    s.writeCrown.crownTxtLen = t.writeCrown.crownTxtLen ∧
    ∀ k : Fin 5, k.val < s.writeCrown.crownTxtLen.toNat → s.writeCrown.crownTxt.get k = t.writeCrown.crownTxt.get k := by
  have hlen : s.writeCrown.crownTxtLen = t.writeCrown.crownTxtLen := by simp [hgrid]
  refine ⟨by simp [hgrid], by simp [hgrid], hlen, fun k hk => Option.some.inj ?_⟩
  rw [some_writeCrown_crownTxt_get s k hk, some_writeCrown_crownTxt_get t k (hlen ▸ hk), hgrid]

/-- `DOC` holds the document of the current seed and grid and of the complete store `F` (10_state.md R34). -/
def State.HoldsDocOf (s : State) (F : FragStore) : Prop :=
  complete F ∧ s.docLen.toNat = (assemble s.cfg s.seed s.grid F).length ∧
    ∀ k, k < s.docLen.toNat → s.doc.read k = (assemble s.cfg s.seed s.grid F)[k]?

theorem toNat_storeDocument_docLen {s : State} (hroom : s.docLength ≤ s.cfg.docMax) :
    s.storeDocument.docLen.toNat = s.docLength := by
  have := docMax_bounds s.cfg
  rw [State.storeDocument_docLen, BitVec.toNat_ofNat, Nat.mod_eq_of_lt (by omega)]

theorem document_length {s : State} (hgrid : s.grid = decodeGrid s.seed) : s.document.length = s.docLength := by
  rw [State.document, hgrid, assemble_length, State.docLength]

theorem storeDocument_holdsDocOf {s : State} (hgrid : s.grid = decodeGrid s.seed) (hF : complete s.frags)
    (hroom : s.docLength ≤ s.cfg.docMax) : s.storeDocument.HoldsDocOf s.frags := by
  have hlen := document_length hgrid
  refine ⟨hF, (toNat_storeDocument_docLen hroom).trans hlen.symm, fun k hk => ?_⟩
  rw [toNat_storeDocument_docLen hroom, ← hlen] at hk
  rw [State.storeDocument_doc, List.take_of_length_le hlen.le, Memory.read_storeFromZero_lt _ _ hk]
  rfl

/-! ## The registers of R34 -/

theorem faultCode_ne_zero (k : FaultKind) : faultCode k ≠ 0 := by cases k <;> simp [faultCode]

section
variable {s : State} (h : s.Inv)
include h

theorem State.Inv.raise (w : Byte) (k : FaultKind) : (s.raise w k).Inv :=
  { h with fault_code := iff_of_false (fun hf => nomatch hf) (faultCode_ne_zero k) }

theorem State.Inv.takeSeed (S : Seed) : (s.takeSeed S).Inv :=
  State.Inv.of_traits_invalid (fun hg => nomatch hg) rfl rfl rfl rfl rfl h.fault_code

theorem State.Inv.gridV_of_docV (hd : s.docV = true) : s.gridV = true :=
  have ⟨_, hg, _⟩ := h.doc_valid hd
  hg

/-- DECODE writes a valid grid again. -/
theorem State.Inv.writeGrid_eq (hg : s.gridV = true) : s.writeGrid = s := by
  rw [State.writeGrid, ← (h.grid_valid hg).2, ← hg]

/-- While the grid is not valid, no register derived from it is. -/
theorem State.Inv.writeGrid (hs : s.seedV = true) : s.writeGrid.Inv := by
  cases hg : s.gridV with
  | true =>
    exact (h.writeGrid_eq hg).symm ▸ h
  | false =>
    have no_grid : ¬ s.gridV = true := by simp [hg]
    exact { h with
      grid_valid := fun _ => ⟨hs, rfl⟩
      pass_valid := fun hv => absurd (h.pass_valid hv).1 no_grid
      crown_valid := fun hv => absurd (h.crown_valid hv).1 no_grid
      doc_valid := fun hv => absurd (h.gridV_of_docV hv) no_grid }

theorem State.Inv.writeEven (hs : s.seedV = true) : s.writeEven.Inv :=
  { h with even_valid := fun _ => ⟨hs, toNat_writeEven_evenScore s, rfl⟩ }

theorem State.Inv.writePassages (hg : s.gridV = true) : s.writePassages.Inv :=
  { h with pass_valid := fun _ => ⟨hg, toNat_writePassages_passages s⟩ }

theorem State.Inv.writeCrown (hg : s.gridV = true) : s.writeCrown.Inv :=
  { h with
    crown_valid := fun _ => ⟨hg, toNat_writeCrown_crownRank s, toNat_writeCrown_crownQty s,
      toNat_writeCrown_crownTxtLen s, some_writeCrown_crownTxt_get s⟩ }

theorem State.Inv.withdrawDoc : s.withdrawDoc.Inv :=
  { h with doc_valid := fun hv => (nomatch hv), doc_invalid := fun _ => rfl }

theorem State.Inv.storeDocument (hs : s.seedV = true) (hg : s.gridV = true) (hF : complete s.frags)
    (hroom : s.docLength ≤ s.cfg.docMax) : s.storeDocument.Inv :=
  { h with
    doc_valid := fun _ => ⟨hs, hg, s.frags, storeDocument_holdsDocOf (h.grid_valid hg).2 hF hroom⟩
    doc_invalid := fun hv => (nomatch hv) }

end

theorem inv_keptByWrites : KeptByWrites State.Inv where
  raise _ w k h := h.raise w k
  takeSeed _ S h := h.takeSeed S
  writeGrid _ hs h := h.writeGrid hs
  writeEven _ hs h := h.writeEven hs
  writePassages _ hg h := h.writePassages hg
  writeCrown _ hg h := h.writeCrown hg
  withdrawDoc _ h := h.withdrawDoc
  storeDocument _ hs hg hF hroom h := h.storeDocument hs hg hF hroom

theorem inv_ignoresInputs : IgnoresInputs State.Inv := fun _ _ _ _ _ h => { h with }

theorem hardReset_inv (s : State) : s.hardReset.Inv :=
  State.Inv.of_traits_invalid (fun h => nomatch h) rfl rfl rfl rfl rfl (iff_of_true rfl rfl)

theorem launch_inv (cfg : Config) (v : BitVec 256) (F : FragStore) (a : BitVec 32) (host : List HostAction) :
    (State.launch cfg v F a host).Inv :=
  State.Inv.of_traits_invalid (fun h => nomatch h) rfl rfl rfl rfl rfl (iff_of_true rfl rfl)

theorem step_keeps_inv {s t : State} (hs : s.Inv) (h : step s = .next t) : t.Inv :=
  inv_keptByWrites.step inv_ignoresInputs hardReset_inv hs h

/-- Settles O45: right after reset no flag is 1. -/
theorem registerInvariantHoldsAtReset : Obligations.RegisterInvariantHoldsAtReset :=
  ⟨State.Inv.of_traits_invalid (fun h => nomatch h) rfl rfl rfl rfl rfl (iff_of_true rfl rfl), launch_inv⟩

/-- Settles O46: each write of a command keeps R34, and so does every step. -/
theorem everyStepKeepsTheRegisterInvariant : Obligations.EveryStepKeepsTheRegisterInvariant :=
  fun _ _ hs h => step_keeps_inv hs h

/-- Settles O47: by induction over the run. -/
theorem registerInvariantHoldsInEveryRun : Obligations.RegisterInvariantHoldsInEveryRun := by
  rintro s ⟨cfg, v, F, a, host, hl⟩
  exact leadsTo_induction hl (launch_inv cfg v F a host) fun _ _ => step_keeps_inv

/-! ## The document memory -/

theorem docInv_of_empty {s : State} (hdoc : s.doc = []) (hlen : s.docLen = 0) : s.DocInv where
  canonical := by rw [hdoc]; rfl
  inside x hx := by rw [hdoc] at hx; cases hx
  fits := by simp [hlen]

theorem State.DocInv.storeDocument {s : State} (h : s.DocInv) (hroom : s.docLength ≤ s.cfg.docMax) :
    s.storeDocument.DocInv where
  canonical := Memory.storeFromZero_wf _ h.canonical
  inside x hx := by
    rcases Memory.mem_storeFromZero hx with hnew | hold
    · have := List.length_take_le s.docLength s.document
      simp only [State.storeDocument_cfg]
      omega
    · exact h.inside x hold
  fits := (toNat_storeDocument_docLen hroom).trans_le hroom

theorem docInv_keptByWrites : KeptByWrites State.DocInv where
  raise _ _ _ h := { h with }
  takeSeed _ _ h := { h with fits := Nat.zero_le _ }
  writeGrid _ _ h := { h with }
  writeEven _ _ h := { h with }
  writePassages _ _ h := { h with }
  writeCrown _ _ h := { h with }
  withdrawDoc _ h := { h with fits := Nat.zero_le _ }
  storeDocument _ _ _ _ hroom h := h.storeDocument hroom

theorem docInv_ignoresInputs : IgnoresInputs State.DocInv := fun _ _ _ _ _ h => { h with }

/-- Settles O48: only ASM writes `DOC`, and only once the document is known to fit. -/
theorem everyStepKeepsTheDocumentInsideItsBuffer : Obligations.EveryStepKeepsTheDocumentInsideItsBuffer :=
  ⟨docInv_of_empty rfl rfl, fun _ _ _ _ _ => docInv_of_empty rfl rfl, fun _ _ hs h =>
    docInv_keptByWrites.step docInv_ignoresInputs (fun _ => docInv_of_empty rfl rfl) hs h⟩

/-! ## The error registers -/

theorem raise_errInv (s : State) (w : Byte) (k : FaultKind) : (s.raise w k).ErrInv where
  code_range := by cases k <;> simp [faultCode]
  info_range := by
    cases k with
    | fragMissing id => simp only [State.raise_errInfo, faultInfo, BitVec.toNat_ofNat]; omega
    | illegalCmd | noSeed | noGrid | docOverflow => simp [faultInfo]
  info_only_missing := by
    cases k with
    | fragMissing id => simp [faultCode]
    | illegalCmd | noSeed | noGrid | docOverflow => simp [faultInfo]
  no_fault h := by simp at h
  fault_coded _ := faultCode_ne_zero k

theorem errInv_of_clear {s : State} (hfault : s.fault = false) (hcode : s.errCode = 0) (hinfo : s.errInfo = 0)
    (hcmd : s.errCmd = 0) : s.ErrInv := by
  constructor <;> simp [*]

theorem errInv_keptByWrites : KeptByWrites State.ErrInv where
  raise s w k _ := raise_errInv s w k
  takeSeed _ _ h := { h with }
  writeGrid _ _ h := { h with }
  writeEven _ _ h := { h with }
  writePassages _ _ h := { h with }
  writeCrown _ _ h := { h with }
  withdrawDoc _ h := { h with }
  storeDocument _ _ _ _ _ h := { h with }

theorem errInv_ignoresInputs : IgnoresInputs State.ErrInv := fun _ _ _ _ _ h => { h with }

/-- `u` has the error registers of `s`. -/
def State.SameErr (s u : State) : Prop := u.errCode = s.errCode ∧ u.errInfo = s.errInfo ∧ u.errCmd = s.errCmd

/-- No write but the fault entry touches the error registers (60_exceptions.md R172). -/
theorem fault_or_sameErr_keptByWrites (s : State) : KeptByWrites fun u => u.fault = true ∨ s.SameErr u where
  raise _ _ _ _ := .inl rfl
  takeSeed _ _ h := h
  writeGrid _ _ h := h
  writeEven _ _ h := h
  writePassages _ _ h := h
  writeCrown _ _ h := h
  withdrawDoc _ h := h
  storeDocument _ _ _ _ _ h := h

theorem step_sameErr_or_fault_or_reset {s t : State} (h : step s = .next t) :
    s.SameErr t ∨ (s.fault = false ∧ t.fault = true) ∨ s.resetNext := by
  rcases step_effect_cases h with ⟨w, rest, ⟨hf, -⟩, v, F, a, host, rfl⟩ | ⟨hr, -⟩ | ⟨-, v, F, a, host, rfl⟩
  · rcases (fault_or_sameErr_keptByWrites s).wordBody w (s := { s with host := rest }) (.inr ⟨rfl, rfl, rfl⟩)
      with hfault | hsame
    · exact .inr (.inl ⟨hf, hfault⟩)
    · exact .inl hsame
  · exact .inr (.inr hr)
  · exact .inl ⟨rfl, rfl, rfl⟩

/-- Settles O15: the fault entry writes legal values, and nothing but it and reset writes the error registers. -/
theorem errorRegistersAreWrittenOncePerReset : Obligations.ErrorRegistersAreWrittenOncePerReset := by
  refine ⟨fun s => ⟨?_, ?_⟩, errInv_of_clear rfl rfl rfl rfl, fun s t hs h => ?_, fun s t h hchanged => ?_⟩
  · exact BitVec.extractLsb'_append_eq_right
  · exact BitVec.extractLsb'_append_eq_left
  · exact errInv_keptByWrites.step errInv_ignoresInputs (fun _ => errInv_of_clear rfl rfl rfl rfl) hs h
  · refine (step_sameErr_or_fault_or_reset h).resolve_left fun ⟨hcode, hinfo, hcmd⟩ => ?_
    simp [hcode, hinfo, hcmd] at hchanged

end Sys2Proof.Machine
end

section
/-! PROOFS. What the host reads (10_state.md R26, R32, R33, R36). -/

namespace Sys2Proof.Machine

/-- A byte shifted in from the right, byte after byte: byte `i` of the string stands where the port table puts it. -/
theorem getLsbD_foldl_bytes (bs : Bytes) (hlen : 8 * bs.length ≤ 256) (i j : Nat) (hi : i < bs.length) (hj : j < 8) :
    (bs.foldl (fun (acc : BitVec 256) b => (acc <<< 8) ||| b.setWidth 256) 0).getLsbD (8 * (bs.length - 1 - i) + j) =
      bs[i].getLsbD j := by
  induction bs using List.reverseRecOn with
  | nil => simp at hi
  | append_singleton bs b ih =>
    simp only [List.length_append, List.length_singleton] at hi hlen ⊢
    rw [List.foldl_concat, BitVec.getLsbD_or, BitVec.getLsbD_shiftLeft, BitVec.getLsbD_setWidth]
    by_cases hlast : i = bs.length
    · subst hlast
      simp [hj, show j < 256 by omega]
    · have hold := ih (by omega) (by omega)
      have hpos : 8 * (bs.length + 1 - 1 - i) + j - 8 = 8 * (bs.length - 1 - i) + j := by omega
      rw [hpos, hold, List.getElem_append_left (by omega),
        BitVec.getLsbD_of_ge b _ (by omega)]
      simp only [decide_eq_true (show 8 * (bs.length + 1 - 1 - i) + j < 256 by omega),
        decide_eq_false (show ¬ 8 * (bs.length + 1 - 1 - i) + j < 8 by omega), Bool.not_false, Bool.true_and,
        Bool.and_false, Bool.or_false]

theorem seedBits_extractLsb' (S : Seed) (i : Fin 32) : (seedBits S).extractLsb' (248 - 8 * i.val) 8 = S.get i := by
  refine BitVec.eq_of_getLsbD_eq fun j hj => ?_
  have h := getLsbD_foldl_bytes S.toList (by simp) i.val j (by simp) hj
  have hpos : 248 - 8 * i.val + j = 8 * (S.toList.length - 1 - i.val) + j := by
    rw [Vector.length_toList]
    omega
  rw [BitVec.getLsbD_extractLsb', seedBits, hpos, h]
  simp [hj, Vector.get_eq_getElem]

theorem grid_bits_getLsbD (G : Grid) (r : Ring) (c : Sector) :
    G.bits.getLsbD (255 - (64 * r.val + c.val)) = G.cell r c := by
  rw [Grid.cell, BitVec.getMsbD_eq_getLsbD, decide_eq_true (Grid.cell_index_lt r c), Bool.true_and]

@[simp] theorem isSome_guarded {α : Type} (flag : Bool) (v : α) : (guarded flag v).isSome = flag := by
  cases flag <;> rfl

theorem eq_of_guarded_eq_some {α : Type} {flag : Bool} {v w : α} (h : guarded flag v = some w) : w = v := by
  cases flag with
  | true => exact (Option.some.inj h).symm
  | false => nomatch h

/-- The three bytes of `even_label`, byte 0 first. -/
theorem label_extractLsb' (a b c : Byte) :
    (a ++ b ++ c).extractLsb' 16 8 = a ∧ (a ++ b ++ c).extractLsb' 8 8 = b ∧ (a ++ b ++ c).extractLsb' 0 8 = c := by
  refine ⟨?_, ?_, BitVec.extractLsb'_append_eq_right⟩
  · rw [BitVec.extractLsb'_append_eq_of_le (by omega)]
    exact BitVec.extractLsb'_append_eq_left
  · rw [BitVec.extractLsb'_append_eq_of_le (by omega)]
    exact BitVec.extractLsb'_append_eq_right

/-- A valid document has a value at every offset below its length. -/
theorem State.Inv.docByteAt_isSome {s : State} (h : s.Inv) (a : Nat) :
    (s.docByteAt a).isSome = true ↔ s.docV = true ∧ a < s.docLen.toNat := by
  rw [State.docByteAt]
  by_cases hv : s.docV = true ∧ a < s.docLen.toNat
  · obtain ⟨-, -, F, -, hlen, hread⟩ := h.doc_valid hv.1
    simp [hv, hread a hv.2, ← hlen]
  · simp [hv]

/-- Settles O49: each wide port is read back field by field at the bits of the port table. -/
theorem portsHaveAValueExactlyWhenValid : Obligations.PortsHaveAValueExactlyWhenValid := by
  intro s
  refine ⟨⟨rfl, rfl, rfl, rfl, ?_, rfl⟩, ⟨isSome_guarded _ _, fun v hv i => ?_⟩,
    ⟨isSome_guarded _ _, fun v hv r c => ?_⟩, ⟨isSome_guarded _ _, fun v hv => ?_⟩, rfl, rfl, rfl, rfl, rfl,
    fun k => ⟨?_, rfl⟩, rfl, fun h => h.docByteAt_isSome _⟩
  · simp [State.ports]
  · rw [eq_of_guarded_eq_some hv, seedBits_extractLsb']
  · rw [eq_of_guarded_eq_some hv, grid_bits_getLsbD]
  · rw [eq_of_guarded_eq_some hv]
    exact label_extractLsb' _ _ _
  · simp [State.ports, Vector.get_eq_getElem]

/-- Eight bits put together, most significant first, are read back one by one. -/
theorem getLsbD_flags : ∀ seedV gridV evenV passV crownV docV fault : Bool,
    let v : Byte := BitVec.ofBool fault ++ (0 : BitVec 1) ++ BitVec.ofBool docV ++ BitVec.ofBool crownV ++
      BitVec.ofBool passV ++ BitVec.ofBool evenV ++ BitVec.ofBool gridV ++ BitVec.ofBool seedV
    v.getLsbD 0 = seedV ∧ v.getLsbD 1 = gridV ∧ v.getLsbD 2 = evenV ∧ v.getLsbD 3 = passV ∧ v.getLsbD 4 = crownV ∧
      v.getLsbD 5 = docV ∧ v.getLsbD 6 = false ∧ v.getLsbD 7 = fault := by decide

/-- Settles O16: the flags are the bits of STATUS, put together once. -/
theorem statusShowsTheFlags : Obligations.StatusShowsTheFlags :=
  ⟨fun s => getLsbD_flags s.seedV s.gridV s.evenV s.passV s.crownV s.docV s.fault, rfl⟩

/-- Settles O10: every clause is a value of the reset state. -/
theorem resetClearsFlagsErrorsAndLength : Obligations.ResetClearsFlagsErrorsAndLength :=
  ⟨rfl, rfl, rfl, rfl, rfl, rfl, rfl, rfl, rfl, rfl, rfl, rfl, rfl, rfl, rfl, rfl, rfl, rfl, rfl, rfl, rfl,
    fun _ => rfl, fun _ => rfl⟩

end Sys2Proof.Machine
end

section
/-! PROOFS. The document line of 10_state.md R34 along a run, and the table of writes of R35. -/

namespace Sys2Proof.Machine

/-- The invariants of R34, with `F` the store that a valid document was made from. -/
structure State.InvWith (F : Option FragStore) (s : State) : Prop where
  inv : s.Inv
  doc : s.docV = true → ∃ G, F = some G ∧ s.HoldsDocOf G

theorem invWith_keptByTraitWrites (F : Option FragStore) : KeptByTraitWrites (State.InvWith F) where
  raise _ w k h := ⟨h.inv.raise w k, h.doc⟩
  takeSeed _ S h := ⟨h.inv.takeSeed S, fun hd => nomatch hd⟩
  writeGrid _ hs h := ⟨h.inv.writeGrid hs, fun hd =>
    (h.inv.writeGrid_eq (h.inv.gridV_of_docV hd)).symm ▸ h.doc hd⟩
  writeEven _ hs h := ⟨h.inv.writeEven hs, h.doc⟩
  writePassages _ hg h := ⟨h.inv.writePassages hg, h.doc⟩
  writeCrown _ hg h := ⟨h.inv.writeCrown hg, h.doc⟩

theorem invWith_ignoresInputs (F : Option FragStore) : IgnoresInputs (State.InvWith F) :=
  fun _ _ _ _ _ h => ⟨inv_ignoresInputs _ _ _ _ _ h.inv, h.doc⟩

/-- A document that is valid after ASM is that of the store ASM read: ASM wrote it or withdrew the old one. -/
theorem assembleDoc_invWith {s : State} (h : s.Inv) (w : Byte) : (s.assembleDoc w).InvWith (some s.frags) := by
  refine ⟨inv_keptByWrites.assembleDoc w h, fun hd => ?_⟩
  rcases assembleDoc_cases s w with ⟨hs, he⟩ | ⟨-, hg, he⟩ | ⟨id, -, -, -, he⟩ | ⟨-, -, -, -, he⟩ | ⟨-, hg, hm, hroom, he⟩
  · rw [he] at hd
    simp [(h.doc_valid hd).1] at hs
  · rw [he] at hd
    simp [h.gridV_of_docV hd] at hg
  · rw [he] at hd
    cases hd
  · rw [he] at hd
    cases hd
  · rw [he]
    exact ⟨_, rfl, storeDocument_holdsDocOf (h.grid_valid hg).2 (FragStore.firstMissing_eq_none.1 hm) hroom⟩

/-- ASM and QUERY, the words that assemble a document. -/
theorem wordBody_invWith {s : State} (h : s.Inv) {w : Byte} (hw : w = encode .asm ∨ w = encode .query) :
    (wordBody w s).InvWith (some s.frags) := by
  rcases hw with rfl | rfl
  · exact assembleDoc_invWith h _
  · have hfrags : s.runTraits.frags = s.frags := by simp [State.runTraits]
    exact hfrags ▸ assembleDoc_invWith (inv_keptByWrites.runTraits h) (encode .query)

theorem hardReset_invWith (F : Option FragStore) (s : State) : s.hardReset.InvWith F :=
  ⟨hardReset_inv s, fun hd => nomatch hd⟩

theorem step_invWith_of_assembles {s t : State} (h : s.Inv) (hnext : s.assemblesNext) (hstep : step s = .next t) :
    t.InvWith (some s.frags) := by
  obtain ⟨w, rest, hexec, hw⟩ := assemblesNext_iff.1 hnext
  rcases step_effect_cases hstep with ⟨w', rest', hexec', ht⟩ | ⟨-, ht⟩ | ⟨hnot, -⟩
  · obtain rfl : w' = w := executesNext_word_unique hexec' hexec
    exact (invWith_ignoresInputs _).moved ht
      (wordBody_invWith (inv_ignoresInputs s s.seedIn s.frags s.docAddr rest' h) hw)
  · exact (invWith_ignoresInputs _).moved ht (hardReset_invWith _ s)
  · exact absurd hexec (hnot w rest)

theorem step_keeps_invWith {F : Option FragStore} {s t : State} (h : s.InvWith F) (hnext : ¬ s.assemblesNext)
    (hstep : step s = .next t) : t.InvWith F := by
  rcases step_effect_cases hstep with ⟨w, rest, hexec, ht⟩ | ⟨-, ht⟩ | ⟨-, ht⟩
  · have hw : ¬ (w = encode .asm ∨ w = encode .query) :=
      fun hw => hnext (assemblesNext_iff.2 ⟨w, rest, hexec, hw⟩)
    exact (invWith_ignoresInputs _).moved ht ((invWith_keptByTraitWrites F).wordBody (fun ha => hw (.inl ha))
      (fun hq => hw (.inr hq)) (invWith_ignoresInputs _ s s.seedIn s.frags s.docAddr rest h))
  · exact (invWith_ignoresInputs _).moved ht (hardReset_invWith _ s)
  · exact (invWith_ignoresInputs _).moved ht h

theorem State.RunWith.invWith {F : Option FragStore} {s : State} (h : State.RunWith F s) : s.InvWith F := by
  induction h with
  | launch cfg v F a host => exact ⟨launch_inv cfg v F a host, fun hd => nomatch hd⟩
  | assembled _ hnext hstep ih => exact step_invWith_of_assembles ih.inv hnext hstep
  | other _ hnext hstep ih => exact step_keeps_invWith ih hnext hstep

theorem State.RunWith.reached {F : Option FragStore} {s : State} (h : State.RunWith F s) : s.reached := by
  induction h with
  | launch cfg v F a host => exact ⟨cfg, v, F, a, host, .refl⟩
  | assembled _ _ hstep ih | other _ _ hstep ih =>
    obtain ⟨cfg, v, F, a, host, hl⟩ := ih
    exact ⟨cfg, v, F, a, host, .next hl hstep⟩

/-- Settles O51: by induction over the run, an assembling step brings the document of its own store and every other step
keeps a valid document as it is. -/
theorem validDocumentIsOfTheStoreAtItsAsm : Obligations.ValidDocumentIsOfTheStoreAtItsAsm :=
  ⟨fun _ => ⟨State.reached.runWith, fun ⟨_, h⟩ => h.reached⟩, fun _ _ h => ⟨h.invWith.inv, h.invWith.doc⟩⟩

/-! ## The table of writes -/

/-- `t` has the parameters, the input ports, the store and the host's list of `s`. -/
structure State.SamePorts (s t : State) : Prop where
  cfg : s.cfg = t.cfg
  seedIn : s.seedIn = t.seedIn
  frags : s.frags = t.frags
  docAddr : s.docAddr = t.docAddr
  host : s.host = t.host

theorem samePorts_keptByWrites (s : State) : KeptByWrites s.SamePorts where
  raise _ _ _ h := { h with }
  takeSeed _ _ h := { h with }
  writeGrid _ _ h := { h with }
  writeEven _ _ h := { h with }
  writePassages _ _ h := { h with }
  writeCrown _ _ h := { h with }
  withdrawDoc _ h := { h with }
  storeDocument _ _ _ _ _ h := { h with }

theorem commandBody_samePorts (i : Instr) (s : State) : s.SamePorts (commandBody i s) :=
  (samePorts_keptByWrites s).commandBody i ⟨rfl, rfl, rfl, rfl, rfl⟩

theorem needSeed_cases (s : State) (w : Byte) (f : State → State) :
    s.needSeed w f = s.raise w .noSeed ∨ s.seedV = true ∧ s.needSeed w f = f s := by
  cases hv : s.seedV with
  | true => exact .inr ⟨rfl, needSeed_of_valid hv w f⟩
  | false => exact .inl (needSeed_of_invalid hv w f)

theorem needGrid_cases (s : State) (w : Byte) (f : State → State) :
    s.needGrid w f = s.raise w .noGrid ∨ s.gridV = true ∧ s.needGrid w f = f s := by
  cases hv : s.gridV with
  | true => exact .inr ⟨rfl, needGrid_of_valid hv w f⟩
  | false => exact .inl (needGrid_of_invalid hv w f)

/-- Settles O28: no command but QUERY has more than its own writes and those of the fault entry. -/
theorem registersChangeOnlyUnderTheirCommands : Obligations.RegistersChangeOnlyUnderTheirCommands := by
  intro i s t h
  rw [exec_eq_body] at h
  obtain rfl := Host.Outcome.next.inj h
  rcases s.fault.eq_false_or_eq_true with hf | hf
  · simp [unlessHalted_of_halted hf]
  rw [unlessHalted_of_running hf]
  obtain ⟨hcfg, hseedIn, hfrags, hdocAddr, hhost⟩ := commandBody_samePorts i s
  cases i with
  | nop => simp [commandBody]
  | ldseed => simp [commandBody]
  | decode => rcases needSeed_cases s (encode .decode) State.writeGrid with he | ⟨-, he⟩ <;> simp [commandBody, he]
  | even => rcases needSeed_cases s (encode .even) State.writeEven with he | ⟨-, he⟩ <;> simp [commandBody, he]
  | pass => rcases needGrid_cases s (encode .pass) State.writePassages with he | ⟨-, he⟩ <;> simp [commandBody, he]
  | crown => rcases needGrid_cases s (encode .crown) State.writeCrown with he | ⟨-, he⟩ <;> simp [commandBody, he]
  | asm =>
    rcases assembleDoc_cases s (encode .asm) with ⟨-, he⟩ | ⟨-, -, he⟩ | ⟨id, -, -, -, he⟩ | ⟨-, -, -, -, he⟩ |
      ⟨-, -, -, -, he⟩ <;> simp [commandBody, he]
  | query => simp [← hcfg, ← hseedIn, ← hfrags, ← hdocAddr, ← hhost]

end Sys2Proof.Machine
end

section
/-! PROOFS. Each operation carries two states that differ only in what is unspecified to two such states (10_state.md R33,
R36, R41); so do a command, a host action and a step, and the ports show the same. -/

namespace Sys2Proof.Machine

/-! ## The ports -/

theorem guarded_congr {α : Type} {flag flag' : Bool} {v v' : α} (hflag : flag = flag') (hv : flag = true → v = v') :
    guarded flag v = guarded flag' v' := by
  subst hflag
  cases flag with
  | true => rw [hv rfl]
  | false => rfl

section
variable {s t : State} (h : s.SameVisible t)
include h

theorem State.SameVisible.status : s.status = t.status := by
  simp only [State.status, h.fault, h.docV, h.crownV, h.passV, h.evenV, h.gridV, h.seedV]

theorem State.SameVisible.err : s.err = t.err := by simp only [State.err, h.errInfo, h.errCode]

theorem State.SameVisible.crownTxtAt (k : Fin 5) : s.crownTxtAt k = t.crownTxtAt k := by
  rcases s.crownV.eq_false_or_eq_true with hv | hv
  · obtain ⟨-, -, hlen, htxt⟩ := h.crown hv
    simp only [State.crownTxtAt, ← h.crownV, ← hlen]
    split
    · next hk => rw [htxt k hk.2]
    · rfl
  · simp [State.crownTxtAt, ← h.crownV, hv]

theorem State.SameVisible.docByteAt (a : Nat) : s.docByteAt a = t.docByteAt a := by
  simp only [State.docByteAt, ← h.docV, ← h.docLen]
  split
  · next ha => exact h.doc ha.1 a ha.2
  · rfl

theorem State.SameVisible.ports : s.ports = t.ports := by
  have hscore : s.evenV = true → s.evenScore = t.evenScore := fun hv => (h.even hv).1
  have hlabel : s.evenV = true → s.evenLabel = t.evenLabel := fun hv => (h.even hv).2
  have hrank : s.crownV = true → s.crownRank = t.crownRank := fun hv => (h.crown hv).1
  have hqty : s.crownV = true → s.crownQty = t.crownQty := fun hv => have ⟨_, hqty, _⟩ := h.crown hv; hqty
  have hlen : s.crownV = true → s.crownTxtLen = t.crownTxtLen := fun hv => have ⟨_, _, hlen, _⟩ := h.crown hv; hlen
  simp only [State.ports, Ports.mk.injEq]
  refine ⟨trivial, h.status, h.err, h.errCmd, guarded_congr h.seedV fun hv => by rw [h.seed hv],
    guarded_congr h.gridV fun hv => by rw [h.grid hv], guarded_congr h.evenV hscore,
    guarded_congr h.evenV fun hv => by rw [hlabel hv], guarded_congr h.passV h.pass, guarded_congr h.crownV hrank,
    guarded_congr h.crownV hqty, ?_, guarded_congr h.crownV hlen, h.docLen, ?_, by rw [h.fault]⟩
  · rw [funext h.crownTxtAt]
  · rw [h.docAddr, h.docByteAt]

end

/-! ## The writes -/

/-- `s` and `t` agree on all that LDSEED leaves visible. -/
structure State.SameInputs (s t : State) : Prop extends s.SamePorts t where
  fault : s.fault = t.fault
  errCode : s.errCode = t.errCode
  errInfo : s.errInfo = t.errInfo
  errCmd : s.errCmd = t.errCmd

theorem State.SameInputs.takeSeed {s t : State} (h : s.SameInputs t) (S : Seed) :
    (s.takeSeed S).SameVisible (t.takeSeed S) :=
  { h with
    seedV := rfl, gridV := rfl, evenV := rfl, passV := rfl, crownV := rfl, docV := rfl, docLen := rfl
    seed := fun _ => rfl
    grid := fun hv => (nomatch hv)
    even := fun hv => (nomatch hv)
    pass := fun hv => (nomatch hv)
    crown := fun hv => (nomatch hv)
    doc := fun hv => (nomatch hv) }

theorem State.SameInputs.loadSeed {s t : State} (h : s.SameInputs t) : s.loadSeed.SameVisible t.loadSeed := by
  rw [loadSeed_eq, loadSeed_eq, h.seedIn]
  exact h.takeSeed _

section
variable {s t : State} (h : s.SameVisible t)
include h

theorem State.SameVisible.sameInputs : s.SameInputs t := { h with }

theorem State.SameVisible.raise (w : Byte) (k : FaultKind) : (s.raise w k).SameVisible (t.raise w k) :=
  { h with fault := rfl, errCode := rfl, errInfo := rfl, errCmd := rfl }

theorem State.SameVisible.writeGrid (hs : s.seedV = true) : s.writeGrid.SameVisible t.writeGrid :=
  { h with gridV := rfl, grid := fun _ => congrArg decodeGrid (h.seed hs) }

theorem State.SameVisible.writeEven (hs : s.seedV = true) : s.writeEven.SameVisible t.writeEven :=
  { h with evenV := rfl, even := fun _ => by simp [h.seed hs] }

theorem State.SameVisible.writePassages (hg : s.gridV = true) : s.writePassages.SameVisible t.writePassages :=
  { h with passV := rfl, pass := fun _ => by simp [h.grid hg] }

/-- Two Crown strings of one grid agree below their length, whatever stands past it. -/
theorem State.SameVisible.writeCrown (hg : s.gridV = true) : s.writeCrown.SameVisible t.writeCrown :=
  { h with
    crownV := rfl
    crown := fun _ => writeCrown_crown_eq (h.grid hg) }

theorem State.SameVisible.withdrawDoc : s.withdrawDoc.SameVisible t.withdrawDoc :=
  { h with docV := rfl, docLen := rfl, doc := fun hv => (nomatch hv) }

theorem State.SameVisible.docLength_eq (hs : s.seedV = true) : s.docLength = t.docLength := by
  rw [State.docLength, State.docLength, h.cfg, h.seed hs, h.frags]

theorem State.SameVisible.document_eq (hs : s.seedV = true) (hg : s.gridV = true) : s.document = t.document := by
  rw [State.document, State.document, h.cfg, h.seed hs, h.grid hg, h.frags]

/-- ASM writes every byte below `DOC_LEN`, as the grid is the seed's. -/
theorem State.SameVisible.storeDocument (hs : s.seedV = true) (hg : s.gridV = true)
    (hgrid : s.grid = decodeGrid s.seed) : s.storeDocument.SameVisible t.storeDocument :=
  { h with
    docLen := by simp [h.docLength_eq hs]
    docV := rfl
    doc := fun _ k hk => by
      have hwritten : k < (s.document.take s.docLength).length := by
        rw [List.take_of_length_le (document_length hgrid).le, document_length hgrid]
        rw [State.storeDocument_docLen, BitVec.toNat_ofNat] at hk
        exact hk.trans_le (Nat.mod_le _ _)
      rw [State.storeDocument_doc, State.storeDocument_doc, ← h.document_eq hs hg, ← h.docLength_eq hs,
        Memory.read_storeFromZero_lt _ _ hwritten, Memory.read_storeFromZero_lt _ _ hwritten] }

/-! ## The tests -/

theorem State.SameVisible.needSeed (w : Byte) {f g : State → State}
    (hfg : s.seedV = true → (f s).SameVisible (g t)) : (s.needSeed w f).SameVisible (t.needSeed w g) := by
  rcases s.seedV.eq_false_or_eq_true with hs | hs
  · rw [needSeed_of_valid hs, needSeed_of_valid (h.seedV ▸ hs)]
    exact hfg hs
  · rw [needSeed_of_invalid hs, needSeed_of_invalid (h.seedV ▸ hs)]
    exact h.raise w _

theorem State.SameVisible.needGrid (w : Byte) {f g : State → State}
    (hfg : s.gridV = true → (f s).SameVisible (g t)) : (s.needGrid w f).SameVisible (t.needGrid w g) := by
  rcases s.gridV.eq_false_or_eq_true with hg | hg
  · rw [needGrid_of_valid hg, needGrid_of_valid (h.gridV ▸ hg)]
    exact hfg hg
  · rw [needGrid_of_invalid hg, needGrid_of_invalid (h.gridV ▸ hg)]
    exact h.raise w _

theorem State.SameVisible.needFragments (w : Byte) {f g : State → State} (hfg : (f s).SameVisible (g t)) :
    (s.needFragments w f).SameVisible (t.needFragments w g) := by
  rw [State.needFragments, State.needFragments, ← h.frags]
  cases s.frags.firstMissing with
  | some id => exact h.withdrawDoc.raise w _
  | none => exact hfg

theorem State.SameVisible.needRoom (hs : s.seedV = true) (w : Byte) {f g : State → State}
    (hfg : (f s).SameVisible (g t)) : (s.needRoom w f).SameVisible (t.needRoom w g) := by
  rw [State.needRoom, State.needRoom, ← h.cfg, ← h.docLength_eq hs]
  split
  · exact h.withdrawDoc.raise w _
  · exact hfg

theorem State.SameVisible.assembleDoc (hgrid : s.gridV = true → s.grid = decodeGrid s.seed) (w : Byte) :
    (s.assembleDoc w).SameVisible (t.assembleDoc w) :=
  h.needSeed w fun hs => h.needGrid w fun hg => h.needFragments w (h.needRoom hs w (h.storeDocument hs hg (hgrid hg)))

end

/-! ## Commands, actions and steps -/

theorem State.SameInputs.runTraits {s t : State} (h : s.SameInputs t) : s.runTraits.SameVisible t.runTraits :=
  ((((h.loadSeed.writeGrid rfl).writeEven rfl).writePassages rfl).writeCrown rfl)

theorem State.SameInputs.runPipeline {s t : State} (h : s.SameInputs t) : s.runPipeline.SameVisible t.runPipeline :=
  h.runTraits.assembleDoc (fun _ => by simp [State.runTraits]) _

section
variable {s t : State} (h : s.SameVisible t) (hgrid : s.gridV = true → s.grid = decodeGrid s.seed)
include h hgrid

theorem State.SameVisible.commandBody (i : Instr) : (commandBody i s).SameVisible (commandBody i t) := by
  cases i with
  | nop => exact h
  | ldseed => exact h.sameInputs.loadSeed
  | decode => exact h.needSeed _ h.writeGrid
  | even => exact h.needSeed _ h.writeEven
  | pass => exact h.needGrid _ h.writePassages
  | crown => exact h.needGrid _ h.writeCrown
  | asm => exact h.assembleDoc hgrid _
  | query => exact h.sameInputs.runPipeline

theorem State.SameVisible.wordBody (w : Byte) : (wordBody w s).SameVisible (wordBody w t) := by
  rcases word_cases w with hw | ⟨i, rfl⟩
  · rw [wordBody_illegal w hw]
    exact h.raise w _
  · rw [wordBody_encode]
    exact h.commandBody hgrid i

theorem State.SameVisible.takeWord (w : Byte) :
    (s.unlessHalted (Machine.wordBody w)).SameVisible (t.unlessHalted (Machine.wordBody w)) := by
  rcases s.fault.eq_false_or_eq_true with hf | hf
  · rw [unlessHalted_of_halted hf, unlessHalted_of_halted (h.fault ▸ hf)]
    exact h
  · rw [unlessHalted_of_running hf, unlessHalted_of_running (h.fault ▸ hf)]
    exact h.wordBody hgrid w

end

/-- After reset no register is valid. -/
theorem State.SameVisible.hardReset {s t : State} (h : s.SameVisible t) : s.hardReset.SameVisible t.hardReset :=
  { h with
    seedV := rfl, gridV := rfl, evenV := rfl, passV := rfl, crownV := rfl, docV := rfl, docLen := rfl
    fault := rfl, errCode := rfl, errInfo := rfl, errCmd := rfl
    seed := fun hv => (nomatch hv)
    grid := fun hv => (nomatch hv)
    even := fun hv => (nomatch hv)
    pass := fun hv => (nomatch hv)
    crown := fun hv => (nomatch hv)
    doc := fun hv => (nomatch hv) }

section
variable {s t : State} (h : s.SameVisible t) (hgrid : s.gridV = true → s.grid = decodeGrid s.seed)
include h hgrid

/-- Whether a breach of the host's duties stops the step is read off visible registers. -/
theorem State.SameVisible.takeDisturbed (w : Byte) (d : Disturbance) :
    sameOutcome (takeDisturbed w d s) (takeDisturbed w d t) := by
  have hw := h.takeWord hgrid w
  cases d with
  | rst => exact h.hardReset
  | seedMoves v =>
    simp only [Machine.takeDisturbed, takeCommand_eq_body, thenChange, samplesSeedIn, ← h.fault]
    split
    · rfl
    · exact { hw with seedIn := rfl }
  | storeChanges F =>
    simp only [Machine.takeDisturbed, takeCommand_eq_body, thenChange, readsStore, ← h.fault]
    split
    · rfl
    · exact { hw with frags := rfl }
  | storeSilent =>
    simp only [Machine.takeDisturbed, takeCommand_eq_body, asksStore, ← h.fault, ← h.seedV, ← h.gridV]
    split
    · rfl
    · exact hw

theorem State.SameVisible.hostAct (a : HostAction) : sameOutcome (hostAct a s) (hostAct a t) := by
  cases a with
  | command w =>
    rw [Machine.hostAct, Machine.hostAct, takeCommand_eq_body, takeCommand_eq_body]
    exact h.takeWord hgrid w
  | setSeedIn v => exact { h with seedIn := rfl }
  | setFragment id c => exact { h with frags := by rw [h.frags] }
  | setDocAddr a => exact { h with docAddr := rfl }
  | assertReset => exact h.hardReset
  | disturbed w d => exact h.takeDisturbed hgrid w d

theorem State.SameVisible.step : sameOutcome (step s) (step t) := by
  simp only [Machine.step, nextAction, ← h.host]
  split
  · exact h
  · next a rest _ =>
    have hrest : State.SameVisible { s with host := rest } { t with host := rest } := { h with host := rfl }
    exact hrest.hostAct hgrid a

end

/-- Settles O50: every operation reads only what is valid, and R34 gives ASM a document as long as `DOC_LEN`. -/
theorem unspecifiedContentsAreNeverRead : Obligations.UnspecifiedContentsAreNeverRead :=
  fun _ _ hs h => ⟨h.ports, h.step fun hg => (hs.grid_valid hg).2⟩

end Sys2Proof.Machine
end

section
/-! PROOFS. A command given twice writes the same values again (10_state.md R41). -/

namespace Sys2Proof.Machine

theorem Memory.read_storeFromZero_twice (m : Memory) (bs : Bytes) (k : Nat) :
    ((m.storeFromZero bs).storeFromZero bs).read k = (m.storeFromZero bs).read k := by
  rcases Nat.lt_or_ge k bs.length with hk | hk
  · rw [Memory.read_storeFromZero_lt _ _ hk, Memory.read_storeFromZero_lt _ _ hk]
  · exact Memory.read_storeFromZero_ge _ _ hk

theorem State.SameVisible.of_eq {s t : State} (h : s = t) : s.SameVisible t := h ▸ .refl s

@[simp] theorem loadSeed_loadSeed (s : State) : s.loadSeed.loadSeed = s.loadSeed := by
  simp only [State.loadSeed, State.clearDerived]

@[simp] theorem writeGrid_writeGrid (s : State) : s.writeGrid.writeGrid = s.writeGrid := by
  simp only [State.writeGrid]

@[simp] theorem writeEven_writeEven (s : State) : s.writeEven.writeEven = s.writeEven := by
  simp only [State.writeEven]

@[simp] theorem writePassages_writePassages (s : State) : s.writePassages.writePassages = s.writePassages := by
  simp only [State.writePassages]

section
variable {s : State} {w : Byte}

theorem seedV_of_needSeed_running {f : State → State} (hf : (s.needSeed w f).fault = false) : s.seedV = true := by
  rcases needSeed_cases s w f with he | ⟨hv, -⟩
  · rw [he] at hf
    cases hf
  · exact hv

theorem gridV_of_needGrid_running {f : State → State} (hf : (s.needGrid w f).fault = false) : s.gridV = true := by
  rcases needGrid_cases s w f with he | ⟨hv, -⟩
  · rw [he] at hf
    cases hf
  · exact hv

/-- A command that tests `SEED_V`, does not fault and whose writes, made twice, show the same, shows the same twice. -/
theorem needSeed_twice {f : State → State} (hkeep : (f s).seedV = s.seedV) (htwice : (f s).SameVisible (f (f s)))
    (hf : (s.needSeed w f).fault = false) : (s.needSeed w f).SameVisible ((s.needSeed w f).needSeed w f) := by
  have hv := seedV_of_needSeed_running hf
  rwa [needSeed_of_valid hv, needSeed_of_valid (hkeep.trans hv)]

theorem needGrid_twice {f : State → State} (hkeep : (f s).gridV = s.gridV) (htwice : (f s).SameVisible (f (f s)))
    (hf : (s.needGrid w f).fault = false) : (s.needGrid w f).SameVisible ((s.needGrid w f).needGrid w f) := by
  have hv := gridV_of_needGrid_running hf
  rwa [needGrid_of_valid hv, needGrid_of_valid (hkeep.trans hv)]

/-- The second CROWN draws other bytes past the length of `CROWN_TXT`. -/
theorem writeCrown_twice (s : State) : s.writeCrown.SameVisible s.writeCrown.writeCrown :=
  { State.SameVisible.refl s.writeCrown with crown := fun _ => writeCrown_crown_eq rfl }

/-- The second ASM writes the same bytes at the same offsets. -/
theorem storeDocument_twice (s : State) : s.storeDocument.SameVisible s.storeDocument.storeDocument :=
  { State.SameVisible.refl s.storeDocument with
    doc := fun _ k _ => by
      rw [State.storeDocument_doc s.storeDocument, State.storeDocument_doc s]
      exact (Memory.read_storeFromZero_twice _ _ k).symm }

theorem assembleDoc_running (hf : (s.assembleDoc w).fault = false) :
    s.seedV = true ∧ s.gridV = true ∧ s.frags.firstMissing = none ∧ s.docLength ≤ s.cfg.docMax ∧
      s.assembleDoc w = s.storeDocument := by
  rcases assembleDoc_cases s w with ⟨-, he⟩ | ⟨-, -, he⟩ | ⟨id, -, -, -, he⟩ | ⟨-, -, -, -, he⟩ | hready
  · rw [he] at hf; cases hf
  · rw [he] at hf; cases hf
  · rw [he] at hf; cases hf
  · rw [he] at hf; cases hf
  · exact hready

theorem assembleDoc_of_ready (hs : s.seedV = true) (hg : s.gridV = true) (hm : s.frags.firstMissing = none)
    (hroom : s.docLength ≤ s.cfg.docMax) : s.assembleDoc w = s.storeDocument := by
  rw [State.assembleDoc, needSeed_of_valid hs, needGrid_of_valid hg, State.needFragments, hm]
  exact if_neg (Nat.not_lt.2 hroom)

theorem assembleDoc_twice (hf : (s.assembleDoc w).fault = false) :
    (s.assembleDoc w).SameVisible ((s.assembleDoc w).assembleDoc w) := by
  obtain ⟨hs, hg, hm, hroom, he⟩ := assembleDoc_running hf
  have hagain : s.storeDocument.assembleDoc w = s.storeDocument.storeDocument :=
    assembleDoc_of_ready hs hg hm hroom
  rw [he, hagain]
  exact storeDocument_twice s

/-- QUERY reads nothing but the inputs, and leaves them. -/
theorem runPipeline_twice (hs : s.fault = false) (hf : s.runPipeline.fault = false) :
    s.runPipeline.SameVisible s.runPipeline.runPipeline := by
  have hsame := ((fault_or_sameErr_keptByWrites s).commandBody .query (.inr ⟨rfl, rfl, rfl⟩)).resolve_left
    (by simp [commandBody, hf])
  obtain ⟨hcode, hinfo, hcmd⟩ := hsame
  exact State.SameInputs.runPipeline { commandBody_samePorts .query s with
    fault := hs.trans hf.symm, errCode := hcode.symm, errInfo := hinfo.symm, errCmd := hcmd.symm }

end

theorem commandBody_twice {i : Instr} {s : State} (hs : s.fault = false) (hf : (commandBody i s).fault = false) :
    (commandBody i s).SameVisible (commandBody i (commandBody i s)) := by
  cases i with
  | nop => exact .refl _
  | ldseed => exact .of_eq (loadSeed_loadSeed s).symm
  | decode => exact needSeed_twice (by simp) (.of_eq (writeGrid_writeGrid s).symm) hf
  | even => exact needSeed_twice (by simp) (.of_eq (writeEven_writeEven s).symm) hf
  | pass => exact needGrid_twice (by simp) (.of_eq (writePassages_writePassages s).symm) hf
  | crown => exact needGrid_twice (by simp) (writeCrown_twice s) hf
  | asm => exact assembleDoc_twice hf
  | query => exact runPipeline_twice hs hf

/-- Settles O29: a command that faults is ignored the second time, and any other writes the same values again. -/
theorem repeatedCommandChangesNothingVisible : Obligations.RepeatedCommandChangesNothingVisible := by
  intro i s t u ht hu
  rw [exec_eq_body] at ht hu
  obtain rfl := Host.Outcome.next.inj ht
  obtain rfl := Host.Outcome.next.inj hu
  rcases (s.unlessHalted (commandBody i)).fault.eq_false_or_eq_true with hf | hf
  · rw [unlessHalted_of_halted hf]
    exact .refl _
  · rw [unlessHalted_of_running hf]
    rcases s.fault.eq_false_or_eq_true with hs | hs
    · rw [unlessHalted_of_halted hs, hs] at hf
      cases hf
    · rw [unlessHalted_of_running hs] at hf ⊢
      exact commandBody_twice hs hf

end Sys2Proof.Machine
end

section
/-! PROOFS. The opcode table and the decoder (30_encoding.md R70, R71, R74), programs as bytes (R75, R76), and the step
that takes a command word (R72). -/

namespace Sys2Proof

/-! ## The decoder -/

/-- Every row compares the whole word, with one of the words below 8 (R70). -/
theorem opcodeTable_rows : ∀ row ∈ opcodeTable, row.mask = 0xFF ∧ row.pattern.toNat < 8 := by decide

@[simp] theorem decodeWord_encode (i : Instr) : decodeWord (encode i) = .ok i := by cases i <;> rfl

/-- No row can match: its full mask leaves the word as it is, and its pattern is below 8. -/
theorem decodeWord_illegal {w : Byte} (hw : 8 ≤ w.toNat) : decodeWord w = .error (.illegalCmd w) := by
  have hnone : opcodeTable.find? (fun row => w &&& row.mask == row.pattern) = none := by
    refine List.find?_eq_none.2 fun row hrow hmatch => ?_
    obtain ⟨hmask, hpattern⟩ := opcodeTable_rows row hrow
    have hword : w &&& row.mask = w := by rw [hmask]; exact BitVec.and_allOnes
    rw [hword, beq_iff_eq] at hmatch
    exact absurd hw (by rw [hmatch]; omega)
  rw [decodeWord, hnone]

theorem decodeWord_eq_ok_iff {w : Byte} {i : Instr} : decodeWord w = .ok i ↔ w = encode i := by
  refine ⟨fun h => ?_, fun h => h ▸ decodeWord_encode i⟩
  rcases Machine.word_cases w with hw | ⟨j, rfl⟩
  · rw [decodeWord_illegal hw] at h
    cases h
  · rw [decodeWord_encode] at h
    rw [Except.ok.inj h]

/-- Settles O1: the words and the masks are read off the table; a word is a command's own or is refused. -/
theorem commandWordsAreTheEightOfTheTable : Obligations.CommandWordsAreTheEightOfTheTable :=
  ⟨rfl, fun _ _ => decodeWord_eq_ok_iff, fun row hrow => (opcodeTable_rows row hrow).1⟩

/-! ## Programs as bytes -/

theorem decodeProgram_encodeProgram (is : List Instr) : decodeProgram (encodeProgram is) = .ok is := by
  induction is with
  | nil => rfl
  | cons i is ih =>
    rw [encodeProgram] at ih
    simp only [encodeProgram, List.map_cons, decodeProgram, decodeWord_encode, ih]

/-- Settles O3, by induction on the program. -/
theorem programBytesGiveTheCommandsBack : Obligations.ProgramBytesGiveTheCommandsBack :=
  fun is => ⟨List.length_map _, decodeProgram_encodeProgram is⟩

/-- Eight bits of a table row's word are the word. -/
@[simp] theorem tableByte_toNat (b : Byte) : tableByte 8 b.toNat = b :=
  BitVec.eq_of_toNat_eq (by simp [tableByte, b.isLt])

theorem decodeTableWord_encode (i : Instr) : decodeTableWord 8 (encode i).toNat = some i := by
  simp [decodeTableWord]

namespace Machine

/-! ## Taking a word -/

theorem takeCommand_of_decodeWord {w : Byte} {i : Instr} (hw : decodeWord w = .ok i) (s : State) :
    takeCommand w s = exec i s := by
  rw [takeCommand, hw]

theorem takeCommand_illegal {w : Byte} (hw : 8 ≤ w.toNat) {s : State} (hs : s.fault = false) :
    takeCommand w s = .next { s with fault := true, errCode := 1, errInfo := 0, errCmd := w } := by
  rw [takeCommand_eq_body, unlessHalted_of_running hs, wordBody_illegal w hw]
  rfl

theorem takeCommand_halted (w : Byte) {s : State} (hs : s.fault = true) : takeCommand w s = .next s := by
  rw [takeCommand_eq_body, unlessHalted_of_halted hs]

theorem assembleDoc_raises_of_not_complete {s : State} (h : ¬ complete s.frags) (w : Byte) :
    (s.assembleDoc w).fault = true := by
  by_contra hf
  obtain ⟨-, -, hm, -⟩ := assembleDoc_running (Bool.eq_false_of_not_eq_true hf)
  exact h (FragStore.firstMissing_eq_none.1 hm)

/-- At reset no flag is valid, so every command but NOP and LDSEED raises; QUERY, which loads a seed itself, raises
because the store is empty. -/
theorem commandBody_reset_raises {i : Instr} (hnop : i ≠ .nop) (hldseed : i ≠ .ldseed) :
    (commandBody i State.reset).fault = true := by
  have hempty : ¬ complete State.reset.frags := by decide
  cases i with
  | nop => exact absurd rfl hnop
  | ldseed => exact absurd rfl hldseed
  | decode => rfl
  | even => rfl
  | pass => rfl
  | crown => rfl
  | asm => exact assembleDoc_raises_of_not_complete hempty _
  | query => exact assembleDoc_raises_of_not_complete (s := State.reset.runTraits) hempty _

theorem wordBody_reset_ne {w : Byte} (hw : w ≠ 0x00) : wordBody w State.reset ≠ State.reset := by
  rcases word_cases w with hill | ⟨i, rfl⟩
  · rw [wordBody_illegal w hill]
    exact fun h => nomatch congrArg State.fault h
  · rw [wordBody_encode]
    by_cases hld : i = .ldseed
    · subst hld
      exact fun h => nomatch congrArg State.seedV h
    · have hraise := commandBody_reset_raises (fun hi => hw (by rw [hi]; rfl)) hld
      exact fun h => nomatch hraise.symm.trans (congrArg State.fault h)

/-- Settles O2; the state at reset shows that a word other than `0x00` is no no-operation. -/
theorem illegalWordsRaiseIllegalCmd : Obligations.IllegalWordsRaiseIllegalCmd := by
  refine ⟨fun w s hw => ⟨decodeWord_illegal hw, takeCommand_illegal hw, takeCommand_halted w⟩,
    fun w hw => ⟨State.reset, rfl, fun h => wordBody_reset_ne hw ?_⟩⟩
  rw [takeCommand_eq_body, unlessHalted_of_running rfl] at h
  exact Host.Outcome.next.inj h

/-! ## The step -/

theorem step_of_command_pending {s : State} {w : Byte} {rest : List HostAction} (h : s.host = .command w :: rest) :
    step s = takeCommand w { s with host := rest } := by
  rw [step, nextAction, h]
  rfl

/-- Settles O4: what the offered word does is what `takeCommand` does once the host's list has moved on. -/
theorem stepRunsTheOfferedCommand : Obligations.StepRunsTheOfferedCommand := by
  intro s w rest h
  rw [step_of_command_pending h]
  exact ⟨rfl, fun i hi => takeCommand_of_decodeWord hi _, fun hw hs => takeCommand_illegal hw hs,
    fun _ hs => takeCommand_halted w hs⟩

/-- Settles O5: the word placed is the command's own, and the host's list after it is that of `s`. -/
theorem fetchWordIsTheNextCommand : Obligations.FetchWordIsTheNextCommand := by
  intro s i
  have hstep : step (s.withFetchWord 8 (encode i).toNat) = takeCommand (tableByte 8 (encode i).toNat) s :=
    step_of_command_pending rfl
  rw [tableByte_toNat, takeCommand_of_decodeWord (decodeWord_encode i)] at hstep
  exact ⟨decodeTableWord_encode i, hstep⟩

end Machine

end Sys2Proof
end

section
/-! PROOFS. LDSEED and DECODE (40_seed_and_decode.md R90, R92, R93), and the one bits of a seed as wall cells (R94). -/

namespace Sys2Proof

/-- Bit `b` of byte `i` of the seed on the port (20_memory.md R58). -/
theorem seedOfPort_get_getLsbD (v : BitVec 256) (i : Fin 32) {b : Nat} (hb : b < 8) :
    ((seedOfPort v).get i).getLsbD b = v.getLsbD (248 - 8 * i.val + b) := by
  simp [seedOfPort, Vector.get_eq_getElem, seedByte, hb]

/-- Settles O31: each byte's one bits are those of its two columns, summed over the grid in `sum_cell_decodeGrid`. -/
theorem wallCellsAreTheOneBits : Obligations.WallCellsAreTheOneBits := sum_cell_decodeGrid

namespace Machine

/-- A halted block ignores every command (60_exceptions.md R174). -/
theorem exec_of_halted (i : Instr) {s : State} (hs : s.fault = true) : exec i s = .next s := by
  rw [exec_eq_body, unlessHalted_of_halted hs]

theorem exec_of_running (i : Instr) {s : State} (hs : s.fault = false) : exec i s = .next (commandBody i s) := by
  rw [exec_eq_body, unlessHalted_of_running hs]

/-- Settles O18: the seed is the one on the port, and the body of LDSEED is the record update itself. -/
theorem ldseedLoadsTheSeedAndClearsTheDerived : Obligations.LdseedLoadsTheSeedAndClearsTheDerived := by
  refine fun s => ⟨exec_of_halted .ldseed, fun hs => ⟨seedOfPort s.seedIn, ?_, ?_⟩⟩
  · exact fun i b hb => seedOfPort_get_getLsbD s.seedIn i hb
  · exact exec_of_running .ldseed hs

theorem commandBody_decode_of_invalid {s : State} (hv : s.seedV = false) :
    commandBody .decode s = s.raise (encode .decode) .noSeed := needSeed_of_invalid hv _ _

theorem commandBody_decode_of_valid {s : State} (hv : s.seedV = true) :
    commandBody .decode s = s.writeGrid := needSeed_of_valid hv _ _

/-- Settles O19: DECODE raises or writes as `SEED_V` says, and the cells of the grid are read off `decodeGrid`. -/
theorem decodeWritesTheGridOfTheSeed : Obligations.DecodeWritesTheGridOfTheSeed := by
  refine fun s => ⟨exec_of_halted .decode, fun hs hv => ?_, fun hs hv => ⟨decodeGrid s.seed, fun i r => ?_, ?_⟩⟩
  · rw [exec_of_running .decode hs, commandBody_decode_of_invalid hv]
    rfl
  · exact ⟨decodeGrid_cell_high s.seed i r, decodeGrid_cell_low s.seed i r⟩
  · rw [exec_of_running .decode hs, commandBody_decode_of_valid hv]
    rfl

end Machine

end Sys2Proof
end

section
/-! PROOFS. EVEN (41_evenness.md R100 to R102), and its map from the number of one bits to the score (R104). -/

namespace Sys2Proof

/-! ## The score, from the number of one bits -/

/-- Up to 128 one bits the distance to 128 gives the number of one bits back. -/
theorem evenScoreOf_of_le {ones : Nat} (h : ones ≤ 128) : evenScoreOf ones = ones * 10 / 128 := by
  have hdiff : 128 - evenDiff ones = ones := by
    unfold evenDiff
    omega
  rw [evenScoreOf, hdiff]

/-- `ones` and `256 - ones` are equally far from 128. -/
theorem evenScoreOf_complement {ones : Nat} (h : ones ≤ 256) : evenScoreOf (256 - ones) = evenScoreOf ones := by
  have hdiff : evenDiff (256 - ones) = evenDiff ones := by
    unfold evenDiff
    omega
  rw [evenScoreOf, hdiff, evenScoreOf]

/-- The whole 128 is left of the division only when the distance is 0. -/
theorem evenScoreOf_eq_ten_iff (ones : Nat) : evenScoreOf ones = 10 ↔ ones = 128 := by
  unfold evenScoreOf evenDiff
  omega

/-- Settles O21: the bounds of each row are the multiples of 128 that the division by 128 passes at `ones * 10`. -/
theorem evennessMapIsTheTable : Obligations.EvennessMapIsTheTable := by
  refine ⟨fun row hrow => ?_, evenScoreOf_eq_ten_iff⟩
  have hbounds : row.2.1 ≤ 128 ∧ row.2.2 * 128 ≤ row.1 * 10 ∧ row.2.1 * 10 < (row.2.2 + 1) * 128 := by
    revert row
    decide
  intro ones hfirst hlast
  obtain ⟨hhalf, hlo, hhi⟩ := hbounds
  have hones : ones ≤ 128 := hlast.trans hhalf
  have hscore : evenScoreOf ones = row.2.2 := by
    rw [evenScoreOf_of_le hones]
    omega
  exact ⟨hscore, (evenScoreOf_complement (by omega)).trans hscore⟩

/-! ## The one bits of a seed, and the label -/

/-- The two nibbles' bits of `popcountByte_eq_sum`, in the order of the byte. -/
theorem popcountByte_eq_sum_bits (b : Byte) : popcountByte b = ∑ k : Fin 8, (b.getLsbD k.val).toNat := by
  rw [popcountByte_eq_sum, Fin.sum_univ_eight, Fin.sum_univ_four]
  simp only [Fin.isValue, Fin.coe_ofNat_eq_mod, Nat.reduceMod, Nat.reduceSub]
  omega

theorem popcount_eq_sum_bits (S : Seed) :
    popcount S = ∑ i : Fin 32, ∑ k : Fin 8, ((S.get i).getLsbD k.val).toNat := by
  simp only [popcount_eq_sum, popcountByte_eq_sum_bits]

/-- The count of R101 over all 256 bits, bit by bit, has the score of EVEN. -/
theorem evenness_score_eq (S : Seed) : (evenness S).1 =
    (128 - (((∑ i : Fin 32, ∑ k : Fin 8, ((S.get i).getLsbD k.val).toNat : Nat) : Int) - 128).natAbs) * 10 / 128 := by
  rw [← popcount_eq_sum_bits]
  rfl

theorem evenness_score_le (S : Seed) : (evenness S).1 ≤ 10 := evenScoreOf_le (popcount S)

theorem evenness_label_of_ten {S : Seed} (h : (evenness S).1 = 10) : (evenness S).2 = #v[0x31, 0x2E, 0x30] :=
  if_pos h

theorem evenness_label_of_ne_ten {S : Seed} (h : (evenness S).1 ≠ 10) :
    (evenness S).2 = #v[0x30, 0x2E, BitVec.ofNat 8 (0x30 + (evenness S).1)] :=
  if_neg h

namespace Machine

theorem commandBody_even_of_invalid {s : State} (hv : s.seedV = false) :
    commandBody .even s = s.raise (encode .even) .noSeed := needSeed_of_invalid hv _ _

theorem commandBody_even_of_valid {s : State} (hv : s.seedV = true) :
    commandBody .even s = s.writeEven := needSeed_of_valid hv _ _

/-- What EVEN leaves in the registers of R28, by the score. -/
theorem writeEven_score_and_label {s : State} {score : Nat} (h : (evenness s.seed).1 = score) :
    s.writeEven.evenScore.toNat = score ∧ score ≤ 10 ∧
      (score = 10 → s.writeEven.evenLabel = #v[0x31, 0x2E, 0x30]) ∧
      (score ≠ 10 → s.writeEven.evenLabel = #v[0x30, 0x2E, BitVec.ofNat 8 (0x30 + score)]) := by
  subst h
  exact ⟨toNat_writeEven_evenScore s, evenness_score_le s.seed, evenness_label_of_ten, evenness_label_of_ne_ten⟩

/-- Settles O20: EVEN raises or writes as `SEED_V` says; the score fits its register, and the label follows it. -/
theorem evenWritesScoreAndLabel : Obligations.EvenWritesScoreAndLabel := by
  refine fun s => ⟨exec_of_halted .even, fun hs hv => ?_, fun hs hv =>
    ⟨s.writeEven.evenScore, s.writeEven.evenLabel, ?_, ?_⟩⟩
  · rw [exec_of_running .even hs, commandBody_even_of_invalid hv]
    rfl
  · exact writeEven_score_and_label (evenness_score_eq s.seed)
  · rw [exec_of_running .even hs, commandBody_even_of_valid hv]
    rfl

end Machine

end Sys2Proof
end

section
/-! PROOFS. One search of PASS visits the component of its entry cell and nothing else (42_passages.md R111, R113,
R114). -/

namespace Sys2Proof

/-! ## Open cells and their components -/

/-- A node of the graph of R111. -/
abbrev OpenCell (g : Grid) := {x : Cell // g.isOpen x = true}

/-- The component a node lies in (R112). -/
abbrev componentOf {g : Grid} (x : OpenCell g) : (openGraph g).ConnectedComponent :=
  (openGraph g).connectedComponentMk x

theorem componentOf_eq_of_joined {g : Grid} {x y : OpenCell g} (h : joined x.val y.val) :
    componentOf x = componentOf y :=
  SimpleGraph.ConnectedComponent.sound (SimpleGraph.Adj.reachable h)

/-- The cells a search looks at are those an edge of R111 may lead to. -/
theorem mem_neighbours {x y : Cell} : y ∈ neighbours x ↔ joined x y := by
  obtain ⟨r, c⟩ := x
  obtain ⟨r', c'⟩ := y
  simp only [neighbours, radialNeighbours, ringNeighbours, sectorOf, joined, List.mem_append, List.mem_map,
    List.mem_filter, List.mem_finRange, Bool.or_eq_true, beq_iff_eq, true_and, List.mem_cons, List.not_mem_nil,
    or_false, Prod.mk.injEq, Fin.ext_iff]
  refine or_congr ⟨?_, fun ⟨hc, hr⟩ => ⟨r', by omega, rfl, hc⟩⟩ (by omega)
  rintro ⟨q, hq, hr, hc⟩
  omega

/-! ## The turns a search has left -/

/-- How many cells are not in the set `g`. -/
def Grid.unmarkedCount (g : Grid) : Nat := (Finset.univ.filter fun x => g.marked x = false).card

@[simp] theorem Grid.unmarkedCount_blank : Grid.blank.unmarkedCount = 256 := by
  simp [Grid.unmarkedCount]

theorem Grid.unmarkedCount_mark_succ {g : Grid} {x : Cell} (h : g.marked x = false) :
    (g.mark x).unmarkedCount + 1 = g.unmarkedCount := by
  have herase : (Finset.univ.filter fun y => (g.mark x).marked y = false) =
      (Finset.univ.filter fun y => g.marked y = false).erase x := by
    ext y
    simp [and_comm]
  rw [Grid.unmarkedCount, herase]
  exact Finset.card_erase_add_one (by simpa using h)

/-- One turn for each cell in the queue and for each that may still enter it. -/
def Search.turnsLeft (t : Search) : Nat := t.visited.unmarkedCount + t.queue.length

/-! ## What one turn does -/

/-- All that the meeting of a neighbour can do. -/
theorem Search.meet_cases (g : Grid) (t : Search) (y : Cell) :
    (g.isOpen y = true ∧ t.visited.marked y = false ∧
      t.meet g y = { t with visited := t.visited.mark y, queue := t.queue ++ [y] }) ∨
    ((g.isOpen y = true → t.visited.marked y = true) ∧ t.meet g y = t) := by
  unfold Search.meet
  split
  case isTrue h =>
    rw [Bool.and_eq_true, Bool.not_eq_true'] at h
    exact .inl ⟨h.1, h.2, rfl⟩
  case isFalse h => exact .inr ⟨by simpa using h, rfl⟩

section
variable (g : Grid) (t : Search) (z : Cell) (ys : List Cell)

@[simp] theorem Search.foldl_meet_reached : (ys.foldl (Search.meet g) t).reached = t.reached := by
  induction ys generalizing t with
  | nil => rfl
  | cons y ys ih =>
    rw [List.foldl_cons, ih]
    rcases Search.meet_cases g t y with ⟨-, -, he⟩ | ⟨-, he⟩ <;> rw [he]

/-- The open ones of the cells met are visited. -/
theorem Search.marked_foldl_meet : (ys.foldl (Search.meet g) t).visited.marked z = true ↔
    t.visited.marked z = true ∨ (z ∈ ys ∧ g.isOpen z = true) := by
  induction ys generalizing t with
  | nil => simp
  | cons y ys ih =>
    rw [List.foldl_cons, ih]
    rcases Search.meet_cases g t y with ⟨hopen, -, he⟩ | ⟨hskip, he⟩
    · rw [he]
      grind [Grid.marked_mark]
    · rw [he]
      grind

/-- The cells that are visited for the first time are queued. -/
theorem Search.mem_foldl_meet_queue : z ∈ (ys.foldl (Search.meet g) t).queue ↔
    z ∈ t.queue ∨ (z ∈ ys ∧ g.isOpen z = true ∧ t.visited.marked z = false) := by
  induction ys generalizing t with
  | nil => simp
  | cons y ys ih =>
    rw [List.foldl_cons, ih]
    rcases Search.meet_cases g t y with ⟨hopen, hnew, he⟩ | ⟨hskip, he⟩
    · rw [he]
      grind [Grid.marked_mark]
    · rw [he]
      grind

/-- A cell that enters the queue leaves the cells not visited. -/
theorem Search.turnsLeft_foldl_meet : (ys.foldl (Search.meet g) t).turnsLeft = t.turnsLeft := by
  induction ys generalizing t with
  | nil => rfl
  | cons y ys ih =>
    rw [List.foldl_cons, ih]
    rcases Search.meet_cases g t y with ⟨-, hnew, he⟩ | ⟨-, he⟩
    · have := Grid.unmarkedCount_mark_succ hnew
      rw [he]
      simp only [Search.turnsLeft, List.length_append, List.length_singleton]
      omega
    · rw [he]

end

section
variable {g : Grid} {t : Search} {x y : Cell} {rest : List Cell}

theorem Search.take_reached : (t.take g x rest).reached = true ↔ t.reached = true ∨ x.1 = 3 := by
  simp [Search.take]

theorem Search.marked_take : (t.take g x rest).visited.marked y = true ↔
    t.visited.marked y = true ∨ (joined x y ∧ g.isOpen y = true) := by
  rw [Search.take, Search.marked_foldl_meet, mem_neighbours]

theorem Search.mem_take_queue : y ∈ (t.take g x rest).queue ↔
    y ∈ rest ∨ (joined x y ∧ g.isOpen y = true ∧ t.visited.marked y = false) := by
  rw [Search.take, Search.mem_foldl_meet_queue, mem_neighbours]

theorem Search.turnsLeft_take_succ (hq : t.queue = x :: rest) :
    (t.take g x rest).turnsLeft + 1 = t.turnsLeft := by
  rw [Search.take, Search.turnsLeft_foldl_meet]
  simp [Search.turnsLeft, hq, Nat.add_assoc]

/-- The cell `x` has had its turn: it was visited, and it has left the queue. -/
def Search.Done (t : Search) (x : Cell) : Prop := t.visited.marked x = true ∧ x ∉ t.queue

theorem Search.done_of_take (hq : t.queue = x :: rest) (h : (t.take g x rest).Done y) : y = x ∨ t.Done y := by
  obtain ⟨hmarked, hleft⟩ := h
  rw [Search.mem_take_queue, not_or] at hleft
  rw [Search.Done, hq]
  have hy : t.visited.marked y = true := by
    rcases Search.marked_take.1 hmarked with hy | ⟨hj, hopen⟩
    · exact hy
    · simpa [hj, hopen] using hleft.2
  exact or_iff_not_imp_left.2 fun hyx => ⟨hy, by simp [hyx, hleft.1]⟩

end

/-! ## The invariant of a search -/

/-- What holds of the search from `e` before each turn: it has visited nothing outside the component of `e`, and every
edge from a cell that has had its turn was followed. -/
structure Search.Inv (g : Grid) (e : OpenCell g) (t : Search) : Prop where
  entry : t.visited.marked e.val = true
  inside : ∀ x, t.visited.marked x = true → ∃ h, componentOf ⟨x, h⟩ = componentOf e
  queued : ∀ x ∈ t.queue, t.visited.marked x = true
  followed : ∀ x y, t.Done x → joined x y → g.isOpen y = true → t.visited.marked y = true
  reached_only : t.reached = true → ∃ x, t.visited.marked x = true ∧ x.1 = 3
  reached_once : ∀ x, t.Done x → x.1 = 3 → t.reached = true

section
variable {g : Grid} {e : OpenCell g} {t : Search}

theorem Search.Inv.start (e : OpenCell g) :
    Search.Inv g e { visited := Grid.blank.mark e.val, queue := [e.val], reached := false } where
  entry := by simp
  inside x hx := by
    obtain rfl : x = e.val := by simpa using hx
    exact ⟨e.property, rfl⟩
  queued := by simp
  followed := by simp [Search.Done]
  reached_only := by simp
  reached_once := by simp [Search.Done]

theorem Search.Inv.take (h : t.Inv g e) {x : Cell} {rest : List Cell} (hq : t.queue = x :: rest) :
    (t.take g x rest).Inv g e := by
  have hx : t.visited.marked x = true := h.queued x (by simp [hq])
  constructor
  case entry => exact Search.marked_take.2 (.inl h.entry)
  case inside =>
    intro y hy
    rcases Search.marked_take.1 hy with hy | ⟨hj, hy⟩
    · exact h.inside y hy
    · obtain ⟨hopen, hcomp⟩ := h.inside x hx
      exact ⟨hy, (componentOf_eq_of_joined (x := ⟨x, hopen⟩) hj).symm.trans hcomp⟩
  case queued =>
    intro y hy
    rcases Search.mem_take_queue.1 hy with hy | ⟨hj, hopen, -⟩
    · exact Search.marked_take.2 (.inl (h.queued y (by simp [hq, hy])))
    · exact Search.marked_take.2 (.inr ⟨hj, hopen⟩)
  case followed =>
    intro y z hdone hj hopen
    rcases Search.done_of_take hq hdone with rfl | hdone
    · exact Search.marked_take.2 (.inr ⟨hj, hopen⟩)
    · exact Search.marked_take.2 (.inl (h.followed y z hdone hj hopen))
  case reached_only =>
    intro hr
    rcases Search.take_reached.1 hr with hr | hr
    · obtain ⟨y, hy, hy3⟩ := h.reached_only hr
      exact ⟨y, Search.marked_take.2 (.inl hy), hy3⟩
    · exact ⟨x, Search.marked_take.2 (.inl hx), hr⟩
  case reached_once =>
    intro y hdone hy3
    rcases Search.done_of_take hq hdone with rfl | hdone
    · exact Search.take_reached.2 (.inr hy3)
    · exact Search.take_reached.2 (.inl (h.reached_once y hdone hy3))

/-- Turns that suffice empty the queue. -/
theorem Search.Inv.loop (fuel : Nat) (h : t.Inv g e) (hfuel : t.turnsLeft ≤ fuel) :
    (Search.loop g fuel t).Inv g e ∧ (Search.loop g fuel t).queue = [] := by
  induction fuel generalizing t with
  | zero =>
    have hlen : t.queue.length = 0 := Nat.eq_zero_of_add_eq_zero_left (Nat.le_zero.1 hfuel)
    exact ⟨h, List.length_eq_zero_iff.1 hlen⟩
  | succ fuel ih =>
    cases hq : t.queue with
    | nil => simpa [Search.loop, hq] using h
    | cons x rest =>
      have := Search.turnsLeft_take_succ (g := g) hq
      simpa only [Search.loop, hq] using ih (h.take hq) (by omega)

/-- The 256 turns of a search suffice (10_state.md R40). -/
theorem searchFrom_inv (e : OpenCell g) :
    (searchFrom g e.val).Inv g e ∧ (searchFrom g e.val).queue = [] := by
  refine Search.Inv.loop 256 (.start e) ?_
  have := Grid.unmarkedCount_mark_succ (Grid.marked_blank e.val)
  rw [Grid.unmarkedCount_blank] at this
  simp only [Search.turnsLeft, List.length_singleton]
  omega

theorem searchFrom_done {e : OpenCell g} {x : Cell} (h : (searchFrom g e.val).visited.marked x = true) :
    (searchFrom g e.val).Done x :=
  ⟨h, by simp [(searchFrom_inv e).2]⟩

/-- A search visits exactly the component of its entry cell (R114). -/
theorem marked_searchFrom (e x : OpenCell g) :
    (searchFrom g e.val).visited.marked x.val = true ↔ componentOf x = componentOf e := by
  obtain ⟨h, -⟩ := searchFrom_inv e
  refine ⟨fun hx => (h.inside x.val hx).2, fun hx => ?_⟩
  have hpath := (SimpleGraph.reachable_iff_reflTransGen e x).1 (SimpleGraph.ConnectedComponent.exact hx.symm)
  induction hpath with
  | refl => exact h.entry
  | @tail y z hey hyz ih =>
    have hye : componentOf y = componentOf e := (componentOf_eq_of_joined hyz).trans hx
    exact h.followed y.val z.val (searchFrom_done (ih hye)) hyz z.property

/-- It reaches row 3 when its component does. -/
theorem searchFrom_reached (e : OpenCell g) :
    (searchFrom g e.val).reached = true ↔ ∃ x ∈ (componentOf e).supp, x.val.1 = 3 := by
  obtain ⟨h, -⟩ := searchFrom_inv e
  constructor
  · intro hr
    obtain ⟨x, hx, hx3⟩ := h.reached_only hr
    obtain ⟨hopen, hcomp⟩ := h.inside x hx
    exact ⟨⟨x, hopen⟩, hcomp, hx3⟩
  · rintro ⟨x, hcomp, hx3⟩
    exact h.reached_once x.val (searchFrom_done ((marked_searchFrom e x).2 hcomp)) hx3

end

end Sys2Proof
end

section
/-! PROOFS. PASS (42_passages.md): the count is the number of components that touch both boundary rows (R112, R114), its
range and corner cases follow from the graph (R115, R116), and the command writes it (R110). -/

namespace Sys2Proof

/-! ## The count -/

/-- The components that touch row 3, and row 0 in one of the sectors `D` (R112). -/
def countedComponents (g : Grid) (D : Set Sector) : Set (openGraph g).ConnectedComponent :=
  {K | (∃ e ∈ K.supp, e.val.1 = 0 ∧ e.val.2 ∈ D) ∧ ∃ y ∈ K.supp, y.val.1 = 3}

theorem countedComponents_univ (g : Grid) : countedComponents g Set.univ = {K | spansRings g K} := by
  simp [countedComponents, spansRings]

@[simp] theorem countedComponents_empty (g : Grid) : countedComponents g ∅ = ∅ := by
  simp [countedComponents]

/-- What one more entry sector adds: the component of its cell, when that is open and the search from it reaches
row 3. -/
theorem mem_countedComponents_insert {g : Grid} {c : Sector} {D : Set Sector}
    {K : (openGraph g).ConnectedComponent} : K ∈ countedComponents g (insert c D) ↔
      (∃ hc : g.isOpen (0, c) = true, componentOf ⟨(0, c), hc⟩ = K ∧ (searchFrom g (0, c)).reached = true) ∨
      K ∈ countedComponents g D := by
  constructor
  · rintro ⟨⟨⟨⟨r, d⟩, hopen⟩, rfl, rfl, rfl | hd⟩, hrow3⟩
    · exact .inl ⟨hopen, rfl, (searchFrom_reached ⟨_, hopen⟩).2 hrow3⟩
    · exact .inr ⟨⟨_, rfl, rfl, hd⟩, hrow3⟩
  · rintro (⟨hc, rfl, hr⟩ | ⟨⟨e, he, hrow, hd⟩, hrow3⟩)
    · exact ⟨⟨_, rfl, rfl, .inl rfl⟩, (searchFrom_reached ⟨_, hc⟩).1 hr⟩
    · exact ⟨⟨e, he, hrow, .inr hd⟩, hrow3⟩

/-- The claims hold the components `S`: their cells are the claimed ones, and each is counted once. -/
structure Claims.Holds (g : Grid) (t : Claims) (S : Set (openGraph g).ConnectedComponent) : Prop where
  claimed : ∀ x : OpenCell g, t.claimed.marked x.val = true ↔ componentOf x ∈ S
  count : t.count = S.ncard

/-- All that an entry sector can do. -/
theorem Claims.enter_cases (g : Grid) (t : Claims) (c : Sector) :
    (t.enter g c = t ∧ (g.isOpen (0, c) = true → t.claimed.marked (0, c) = true ∨
      (searchFrom g (0, c)).reached = false)) ∨
    (g.isOpen (0, c) = true ∧ t.claimed.marked (0, c) = false ∧ (searchFrom g (0, c)).reached = true ∧
      t.enter g c = ⟨t.claimed.union (searchFrom g (0, c)).visited, t.count + 1⟩) := by
  unfold Claims.enter
  split
  case isTrue h =>
    rw [Bool.and_eq_true, Bool.not_eq_true'] at h
    obtain ⟨hopen, hnew⟩ := h
    cases hr : (searchFrom g (0, c)).reached with
    | true => exact .inr ⟨hopen, hnew, rfl, if_pos hr⟩
    | false => exact .inl ⟨if_neg (by simp [hr]), fun _ => .inr rfl⟩
  case isFalse h => exact .inl ⟨rfl, fun hopen => .inl (by simpa [hopen] using h)⟩

section
variable {g : Grid} {t : Claims}

/-- A search that starts outside the components held adds its own as a new one. -/
theorem Claims.Holds.claim {S : Set (openGraph g).ConnectedComponent} (h : t.Holds g S) (e : OpenCell g)
    (hnew : t.claimed.marked e.val = false) :
    Claims.Holds g ⟨t.claimed.union (searchFrom g e.val).visited, t.count + 1⟩ (insert (componentOf e) S) where
  claimed x := by
    rw [Grid.marked_union, Bool.or_eq_true, h.claimed, marked_searchFrom, Set.mem_insert_iff, or_comm]
  count := by
    have hnot : componentOf e ∉ S := fun hS => by simp [(h.claimed e).2 hS] at hnew
    rw [Set.ncard_insert_of_notMem hnot S.toFinite, h.count]

theorem Claims.Holds.enter {D : Set Sector} (h : t.Holds g (countedComponents g D)) (c : Sector) :
    (t.enter g c).Holds g (countedComponents g (insert c D)) := by
  rcases Claims.enter_cases g t c with ⟨he, hskip⟩ | ⟨hc, hnew, hr, he⟩
  · have hsame : countedComponents g (insert c D) = countedComponents g D := by
      refine Set.ext fun K => mem_countedComponents_insert.trans (or_iff_right_of_imp ?_)
      rintro ⟨hc, rfl, hr⟩
      exact (h.claimed ⟨(0, c), hc⟩).1 ((hskip hc).resolve_right (by simp [hr]))
    rwa [he, hsame]
  · have hadd : countedComponents g (insert c D) =
        insert (componentOf ⟨(0, c), hc⟩) (countedComponents g D) :=
      Set.ext fun K => mem_countedComponents_insert.trans (or_congr_left (by simp [hc, hr, eq_comm]))
    rw [he, hadd]
    exact h.claim ⟨(0, c), hc⟩ hnew

theorem Claims.Holds.foldl_enter (cs : List Sector) {D : Set Sector} (h : t.Holds g (countedComponents g D)) :
    (cs.foldl (Claims.enter g) t).Holds g (countedComponents g ({c | c ∈ cs} ∪ D)) := by
  induction cs generalizing t D with
  | nil => simpa using h
  | cons c cs ih =>
    have hset : {d | d ∈ c :: cs} ∪ D = {d | d ∈ cs} ∪ insert c D :=
      Set.ext fun d => by simp [or_assoc]
    rw [hset]
    exact ih (h.enter c)

end

/-- Settles O32: every sector of row 0 has been entered, so the components counted are those that span the rings. -/
theorem passageCountIsTheNumberOfSpanningComponents : Obligations.PassageCountIsTheNumberOfSpanningComponents := by
  intro g
  have hstart : Claims.Holds g ⟨Grid.blank, 0⟩ (countedComponents g ∅) := ⟨by simp, by simp⟩
  have hall : ({c | c ∈ List.finRange 64} ∪ ∅ : Set Sector) = Set.univ := by simp
  have hend := (hstart.foldl_enter (List.finRange 64)).count
  rw [hall, countedComponents_univ] at hend
  exact hend

/-! ## Its range -/

/-- Two neighbouring columns, `2 k` and `2 k + 1`, make a pair. -/
def columnPair (x : Cell) : Fin 32 := ⟨x.2.val / 2, by omega⟩

/-- Open cells of one row in one pair of columns are the same or joined. -/
theorem componentOf_eq_of_columnPair {g : Grid} {x y : OpenCell g} (hrow : x.val.1 = y.val.1)
    (hpair : columnPair x.val = columnPair y.val) : componentOf x = componentOf y := by
  by_cases hcol : x.val.2 = y.val.2
  · rw [Subtype.ext (Prod.ext hrow hcol)]
  · have hne := Fin.val_ne_of_ne hcol
    have hdiv : x.val.2.val / 2 = y.val.2.val / 2 := Fin.val_eq_of_eq hpair
    exact componentOf_eq_of_joined (.inr ⟨hrow, by omega⟩)

/-- Different passages have their cells of row 0 in different pairs of columns (R116). -/
theorem countPassages_le_32 (g : Grid) : countPassages g ≤ 32 := by
  have hentry (K : {K // spansRings g K}) : ∃ e : OpenCell g, componentOf e = K.val ∧ e.val.1 = 0 := K.property.1
  choose entry hcomp hrow using hentry
  have hinj : Function.Injective fun K => columnPair (entry K).val := fun K L hpair => Subtype.ext <| by
    rw [← hcomp K, ← hcomp L]
    exact componentOf_eq_of_columnPair ((hrow K).trans (hrow L).symm) hpair
  rw [passageCountIsTheNumberOfSpanningComponents g]
  simpa using Nat.card_le_card_of_injective _ hinj

/-- Settles O33: the bound from the pairs of columns, and the seed that reaches it evaluated. -/
theorem passagesAreAtMostThirtyTwo : Obligations.PassagesAreAtMostThirtyTwo :=
  ⟨countPassages_le_32, by decide +kernel⟩

/-! ## Its corner cases -/

theorem countPassages_eq_zero {g : Grid} (h : ∀ K, ¬ spansRings g K) : countPassages g = 0 := by
  have : IsEmpty {K // spansRings g K} := ⟨fun K => h K.val K.property⟩
  rw [passageCountIsTheNumberOfSpanningComponents g]
  exact Nat.card_of_isEmpty

/-- A row of walls holds no node. -/
theorem OpenCell.row_ne {g : Grid} {r : Ring} (hwall : ∀ c, g.cell r c = true) (x : OpenCell g) : x.val.1 ≠ r := by
  rintro rfl
  have hopen := x.property
  rw [Grid.isOpen, hwall] at hopen
  exact Bool.false_ne_true hopen

theorem Grid.eq_blank {g : Grid} (hopen : ∀ r c, g.cell r c = false) : g = Grid.blank :=
  Grid.ext_cell fun r c => (hopen r c).trans (Grid.marked_blank (r, c)).symm

/-- Settles O34: a boundary row of walls leaves no component that spans the rings; the open grid is one grid, whose
count is evaluated. -/
theorem passageCornerCases : Obligations.PassageCornerCases := by
  refine ⟨fun g hwall => countPassages_eq_zero ?_, fun g hwall => countPassages_eq_zero ?_, fun g hopen => ?_⟩
  · rintro K ⟨⟨x, -, hrow⟩, -⟩
    exact OpenCell.row_ne hwall x hrow
  · rintro K ⟨-, y, -, hrow⟩
    exact OpenCell.row_ne hwall y hrow
  · rw [Grid.eq_blank hopen]
    decide +kernel

/-! ## The command -/

namespace Machine

theorem commandBody_pass_of_invalid {s : State} (hv : s.gridV = false) :
    commandBody .pass s = s.raise (encode .pass) .noGrid := needGrid_of_invalid hv _ _

theorem commandBody_pass_of_valid {s : State} (hv : s.gridV = true) :
    commandBody .pass s = s.writePassages := needGrid_of_valid hv _ _

/-- Settles O22: PASS raises or writes as `GRID_V` says, and the count fits its register. -/
theorem passWritesThePassageCount : Obligations.PassWritesThePassageCount := by
  refine fun s => ⟨exec_of_halted .pass, fun hs hv => ?_, fun hs hv =>
    ⟨s.writePassages.passages, toNat_writePassages_passages s, ?_⟩⟩
  · rw [exec_of_running .pass hs, commandBody_pass_of_invalid hv]
    rfl
  · rw [exec_of_running .pass hs, commandBody_pass_of_valid hv]
    rfl

end Machine

end Sys2Proof
end

section
/-! PROOFS. CROWN (43_crown.md): the windows that are palindromes (R121), the longest of them and their starts (R122),
what follows for rank and qty (R123, R125, R126), the Crown string (R124), and the command that writes them (R120). -/

namespace Sys2Proof

/-! ## The windows -/

section
variable {g : Grid} {s : Sector} {L : Nat}

theorem pal_eq_true_iff : pal g s L = true ↔ IsPal g s L := by
  simp [pal, IsPal]

theorem hasPal_eq_true_iff : hasPal g L = true ↔ ∃ s, IsPal g s L := by
  simp [hasPal, pal_eq_true_iff]

theorem hasPal_eq_false_iff : hasPal g L = false ↔ ∀ s, ¬ IsPal g s L := by
  rw [← Bool.not_eq_true, hasPal_eq_true_iff, not_exists]

theorem sectorOf_congr {a b : Nat} (h : a % 64 = b % 64) : sectorOf a = sectorOf b := Fin.ext h

/-- The window of a palindrome without its two end sectors. -/
theorem IsPal.inner (h : IsPal g s L) (hL : 4 ≤ L) : IsPal g (sectorOf (s.val + 1)) (L - 2) := by
  intro r k hk
  have hleft : sectorOf ((sectorOf (s.val + 1)).val + k) = sectorOf (s.val + (k + 1)) :=
    sectorOf_congr (by simp only [sectorOf]; omega)
  have hright : sectorOf ((sectorOf (s.val + 1)).val + (L - 2) - 1 - k) = sectorOf (s.val + L - 1 - (k + 1)) :=
    sectorOf_congr (by simp only [sectorOf]; omega)
  rw [hleft, hright]
  exact h r (k + 1) (by omega)

/-- Every palindrome has one of length 2 or 3 at its centre (R123). -/
theorem IsPal.exists_centre (h : IsPal g s L) (hL : 2 ≤ L) : ∃ c, IsPal g c 2 ∨ IsPal g c 3 := by
  induction L using Nat.strongRecOn generalizing s with
  | ind L ih =>
    rcases (by omega : L = 2 ∨ L = 3 ∨ 4 ≤ L) with rfl | rfl | hL4
    · exact ⟨s, .inl h⟩
    · exact ⟨s, .inr h⟩
    · exact ih (L - 2) (by omega) (h.inner hL4) (by omega)

/-- The sector on the other side of the circle. -/
def opposite (s : Sector) : Sector := sectorOf (s.val + 32)

theorem opposite_opposite (s : Sector) : opposite (opposite s) = s :=
  Fin.ext (by simp only [opposite, sectorOf]; omega)

theorem opposite_ne (s : Sector) : opposite s ≠ s :=
  Fin.ne_of_val_ne (by simp only [opposite, sectorOf]; omega)

/-- The full windows at opposite starts have the same mirror axis. -/
theorem IsPal.at_opposite (h : IsPal g s 64) : IsPal g (opposite s) 64 := by
  intro r k hk
  have hleft : sectorOf ((opposite s).val + k) = sectorOf (s.val + 64 - 1 - (31 - k)) :=
    sectorOf_congr (by simp only [opposite, sectorOf]; omega)
  have hright : sectorOf ((opposite s).val + 64 - 1 - k) = sectorOf (s.val + (31 - k)) :=
    sectorOf_congr (by simp only [opposite, sectorOf]; omega)
  rw [hleft, hright]
  exact (h r (31 - k) (by omega)).symm

theorem isPal_opposite_iff : IsPal g (opposite s) 64 ↔ IsPal g s 64 :=
  ⟨fun h => opposite_opposite s ▸ h.at_opposite, IsPal.at_opposite⟩

end

/-! ## Rank and qty -/

/-- The start sectors of the palindromes of length `L`. -/
def palStarts (g : Grid) (L : Nat) : Finset Sector := {s | pal g s L = true}

@[simp] theorem mem_palStarts {g : Grid} {s : Sector} {L : Nat} : s ∈ palStarts g L ↔ IsPal g s L := by
  simp [palStarts, pal_eq_true_iff]

@[simp] theorem crownQtyOf_zero (g : Grid) : crownQtyOf g 0 = 0 := if_pos rfl

theorem crownQtyOf_eq_card (g : Grid) {rank : Nat} (h : rank ≠ 0) : crownQtyOf g rank = (palStarts g rank).card := by
  rw [crownQtyOf, if_neg h, List.countP_eq_length_filter, palStarts, Fin.univ_def]
  simp [Finset.filter, Finset.card]

/-- Either no length has a palindrome, or the rank is the largest one that has (R122). -/
theorem crownRankOf_cases (g : Grid) :
    (crownRankOf g = 0 ∧ ∀ L s, 2 ≤ L → L ≤ 64 → ¬ IsPal g s L) ∨
    (2 ≤ crownRankOf g ∧ crownRankOf g ≤ 64 ∧ (∃ s, IsPal g s (crownRankOf g)) ∧
      ∀ L s, L ≤ 64 → IsPal g s L → L ≤ crownRankOf g) := by
  have hnot {L : Nat} (h64 : L ≤ 64) (h : (!(hasPal g ∘ (64 - ·)) (64 - L)) = true) : ∀ s, ¬ IsPal g s L := by
    rw [Bool.not_eq_true', Function.comp_apply, Nat.sub_sub_self h64] at h
    exact hasPal_eq_false_iff.1 h
  rw [crownRankOf, List.find?_map]
  cases hfind : (List.range 63).find? (hasPal g ∘ (64 - ·)) with
  | none =>
    exact .inl ⟨rfl, fun L s h2 h64 => hnot h64 (List.find?_range_eq_none.1 hfind (64 - L) (by omega)) s⟩
  | some i =>
    obtain ⟨hpal, hi, hlonger⟩ := List.find?_range_eq_some.1 hfind
    have hi := List.mem_range.1 hi
    simp only [Option.map_some, Option.getD_some]
    refine .inr ⟨by omega, by omega, hasPal_eq_true_iff.1 hpal, fun L s h64 hL => ?_⟩
    by_contra hlt
    exact hnot h64 (hlonger (64 - L) (by omega)) s hL

section
variable {g : Grid}

theorem le_crownRankOf {L : Nat} {s : Sector} (h2 : 2 ≤ L) (h64 : L ≤ 64) (h : IsPal g s L) : L ≤ crownRankOf g := by
  rcases crownRankOf_cases g with ⟨-, hnone⟩ | ⟨-, -, -, hmax⟩
  · exact absurd h (hnone L s h2 h64)
  · exact hmax L s h64 h

theorem exists_isPal_crownRankOf (h : crownRankOf g ≠ 0) : ∃ s, IsPal g s (crownRankOf g) := by
  rcases crownRankOf_cases g with ⟨hzero, -⟩ | ⟨-, -, hex, -⟩
  · exact absurd hzero h
  · exact hex

theorem crownQtyOf_crownRankOf_pos (h : crownRankOf g ≠ 0) : 0 < crownQtyOf g (crownRankOf g) := by
  obtain ⟨s, hs⟩ := exists_isPal_crownRankOf h
  rw [crownQtyOf_eq_card g h]
  exact Finset.card_pos.2 ⟨s, mem_palStarts.2 hs⟩

end

/-- Settles O35: the rank is the largest length, and its starts are counted as a finite set. -/
theorem crownIsTheLongestPalindromeAndItsStarts : Obligations.CrownIsTheLongestPalindromeAndItsStarts := by
  intro g
  refine (crownRankOf_cases g).imp ?_ ?_
  · rintro ⟨hzero, hnone⟩
    exact ⟨hzero, by rw [crown, hzero, crownQtyOf_zero], hnone⟩
  · rintro ⟨h2, h64, hex, hmax⟩
    refine ⟨h2, h64, hex, hmax, ?_⟩
    rw [Nat.subtype_card (palStarts g (crown g).1) fun s => mem_palStarts]
    exact crownQtyOf_eq_card g (Nat.ne_of_gt (by omega))

/-! ## The reference loop -/

section
variable {g : Grid}

/-- The tie tracking of the reference loop, for the length `L` of a palindrome. -/
def keepLongest (best : Nat × Nat) (L : Nat) : Nat × Nat :=
  if L > best.1 then (L, 1) else if L = best.1 then (best.1, best.2 + 1) else best

/-- The lengths of the palindromes in the order in which the reference loop meets them. -/
def palLengths (g : Grid) : List Nat :=
  (List.finRange 64).flatMap fun s => (List.range' 2 63).filter (pal g s)

theorem mem_palLengths {L : Nat} : L ∈ palLengths g ↔ 2 ≤ L ∧ L ≤ 64 ∧ ∃ s, IsPal g s L := by
  simp only [palLengths, List.mem_flatMap, List.mem_finRange, true_and, List.mem_filter, List.mem_range'_1,
    pal_eq_true_iff, exists_and_left]
  rw [← and_assoc]
  exact and_congr_left' (by omega)

theorem crownLoop_eq_foldl (g : Grid) : crownLoop g = (palLengths g).foldl keepLongest (0, 0) := by
  simp only [palLengths, List.foldl_flatMap, List.foldl_filter]
  rfl

/-- Each start sector meets a length once. -/
theorem count_palLengths {L : Nat} (h2 : 2 ≤ L) (h64 : L ≤ 64) : (palLengths g).count L = (palStarts g L).card := by
  have hone (s : Sector) : ((List.range' 2 63).filter (pal g s)).count L = if pal g s L = true then 1 else 0 := by
    split
    case isTrue hpal =>
      rw [List.count_filter hpal]
      exact List.count_eq_one_of_mem List.nodup_range' (List.mem_range'_1.2 (by omega))
    case isFalse hpal => exact List.count_eq_zero.2 fun hmem => hpal (List.mem_filter.1 hmem).2
  rw [palLengths, List.count_flatMap, palStarts, Finset.card_filter, Fin.sum_univ_def]
  exact congrArg List.sum (List.map_congr_left fun s _ => hone s)

/-- `best` is the largest of the lengths `Ls`, `0` if there is none, and how often it occurs. -/
structure IsLongestOf (Ls : List Nat) (best : Nat × Nat) : Prop where
  upper : ∀ L ∈ Ls, L ≤ best.1
  attained : best.1 = 0 ∨ best.1 ∈ Ls
  count : best.2 = Ls.count best.1

theorem IsLongestOf.fst_le {Ls : List Nat} {a b : Nat × Nat} (ha : IsLongestOf Ls a) (hb : IsLongestOf Ls b) :
    a.1 ≤ b.1 := by
  rcases ha.attained with hzero | hmem
  · omega
  · exact hb.upper _ hmem

theorem IsLongestOf.unique {Ls : List Nat} {a b : Nat × Nat} (ha : IsLongestOf Ls a) (hb : IsLongestOf Ls b) :
    a = b := by
  have hfst : a.1 = b.1 := Nat.le_antisymm (ha.fst_le hb) (hb.fst_le ha)
  exact Prod.ext hfst (by rw [ha.count, hb.count, hfst])

theorem IsLongestOf.append_singleton {Ls : List Nat} {best : Nat × Nat} (h : IsLongestOf Ls best) (L : Nat) :
    IsLongestOf (Ls ++ [L]) (keepLongest best L) := by
  have hsnoc {m : Nat} (hupper : ∀ K ∈ Ls, K ≤ m) (hL : L ≤ m) : ∀ K ∈ Ls ++ [L], K ≤ m := by
    simpa [or_imp, forall_and] using ⟨hupper, hL⟩
  rcases Nat.lt_trichotomy best.1 L with hlt | rfl | hgt
  · have hnew : L ∉ Ls := fun hmem => absurd (h.upper L hmem) (by omega)
    rw [keepLongest, if_pos hlt]
    exact ⟨hsnoc (fun K hK => (h.upper K hK).trans hlt.le) le_rfl, .inr (by simp),
      by simp [List.count_append, List.count_eq_zero.2 hnew]⟩
  · rw [keepLongest, if_neg (lt_irrefl _), if_pos rfl]
    exact ⟨hsnoc h.upper le_rfl, .inr (by simp), by simp [List.count_append, h.count]⟩
  · rw [keepLongest, if_neg (by omega), if_neg (by omega)]
    exact ⟨hsnoc h.upper hgt.le, h.attained.imp_right (List.mem_append_left _),
      by simp [List.count_append, h.count, hgt.ne]⟩

theorem IsLongestOf.foldl_keepLongest (Ls : List Nat) {Ks : List Nat} {best : Nat × Nat} (h : IsLongestOf Ks best) :
    IsLongestOf (Ks ++ Ls) (Ls.foldl keepLongest best) := by
  induction Ls generalizing Ks best with
  | nil => simpa using h
  | cons L Ls ih => simpa using ih (h.append_singleton L)

theorem crownLoop_isLongestOf (g : Grid) : IsLongestOf (palLengths g) (crownLoop g) := by
  have hstart : IsLongestOf [] (0, 0) := ⟨by simp, .inl rfl, rfl⟩
  have hend := hstart.foldl_keepLongest (palLengths g)
  rwa [List.nil_append, ← crownLoop_eq_foldl] at hend

theorem crown_isLongestOf (g : Grid) : IsLongestOf (palLengths g) (crown g) where
  upper L hL := by
    obtain ⟨h2, h64, s, hs⟩ := mem_palLengths.1 hL
    exact le_crownRankOf h2 h64 hs
  attained := (crownRankOf_cases g).imp And.left fun ⟨h2, h64, hex, _⟩ => mem_palLengths.2 ⟨h2, h64, hex⟩
  count := by
    rw [crown]
    rcases crownRankOf_range g with hzero | ⟨h2, h64⟩
    · rw [hzero, crownQtyOf_zero]
      exact (List.count_eq_zero.2 fun hmem => absurd (mem_palLengths.1 hmem).1 (by omega)).symm
    · rw [count_palLengths h2 h64, crownQtyOf_eq_card g (by omega)]

end

/-- Settles O36: both are the longest of the same palindromes with the number of times it occurs. -/
theorem crownEqualsTheReferenceLoop : Obligations.CrownEqualsTheReferenceLoop :=
  fun g => (crown_isLongestOf g).unique (crownLoop_isLongestOf g)

/-! ## The facts of R123 and the two regular grids -/

section
variable {g : Grid}

theorem crownQtyOf_crownRankOf_eq_zero_iff : crownQtyOf g (crownRankOf g) = 0 ↔ crownRankOf g = 0 := by
  refine ⟨fun hqty => ?_, fun hrank => by rw [hrank, crownQtyOf_zero]⟩
  by_contra hrank
  exact (crownQtyOf_crownRankOf_pos hrank).ne' hqty

theorem crownRankOf_eq_zero_iff : crownRankOf g = 0 ↔ ∀ s, ¬ IsPal g s 2 ∧ ¬ IsPal g s 3 := by
  rcases crownRankOf_cases g with ⟨hzero, hnone⟩ | ⟨h2, -, ⟨s, hs⟩, -⟩
  · exact iff_of_true hzero fun s => ⟨hnone 2 s (by decide) (by decide), hnone 3 s (by decide) (by decide)⟩
  · obtain ⟨c, hc⟩ := hs.exists_centre h2
    exact iff_of_false (by omega) fun hnone => hc.elim (hnone c).1 (hnone c).2

/-- The starts of full windows come in opposite pairs. -/
theorem even_card_palStarts_64 (g : Grid) : Even (palStarts g 64).card := by
  rw [← ZMod.natCast_eq_zero_iff_even, Finset.cast_card]
  exact Finset.sum_involution (fun s _ => opposite s) (fun _ _ => by decide) (fun s _ _ => opposite_ne s)
    (fun s hs => mem_palStarts.2 (mem_palStarts.1 hs).at_opposite) fun s _ => opposite_opposite s

theorem crownQtyOf_64 (h : crownRankOf g = 64) :
    crownQtyOf g (crownRankOf g) % 2 = 0 ∧ 2 ≤ crownQtyOf g (crownRankOf g) := by
  have hpos := crownQtyOf_crownRankOf_pos (g := g) (by omega)
  have heven : crownQtyOf g (crownRankOf g) % 2 = 0 := by
    rw [crownQtyOf_eq_card g (by omega), h]
    exact Nat.even_iff.1 (even_card_palStarts_64 g)
  exact ⟨heven, by omega⟩

/-- A length with a palindrome at every start, and no longer one at any. -/
theorem crown_eq_of_all_isPal {L : Nat} (h2 : 2 ≤ L) (h64 : L ≤ 64) (hall : ∀ s, IsPal g s L)
    (hlonger : ∀ K s, L < K → K ≤ 64 → ¬ IsPal g s K) : crown g = (L, 64) := by
  have hle := le_crownRankOf h2 h64 (hall 0)
  have hrank : crownRankOf g = L := by
    obtain ⟨s, hs⟩ := exists_isPal_crownRankOf (g := g) (by omega)
    by_contra hne
    have := crownRankOf_range g
    exact hlonger _ s (by omega) (by omega) hs
  have hstarts : palStarts g L = Finset.univ := Finset.eq_univ_iff_forall.2 fun s => mem_palStarts.2 (hall s)
  rw [crown, hrank, crownQtyOf_eq_card g (by omega), hstarts, Finset.card_univ, Fintype.card_fin]

theorem isPal_of_constant (h : ∀ r c c', g.cell r c = g.cell r c') (s : Sector) (L : Nat) : IsPal g s L :=
  fun r _ _ => h r _ _

theorem crown_of_constant (h : ∀ r c c', g.cell r c = g.cell r c') : crown g = (64, 64) :=
  crown_eq_of_all_isPal (by decide) le_rfl (fun s => isPal_of_constant h s 64) fun _ _ hlt hle => absurd hlt hle.not_gt

end

/-- Settles O37: each fact is a lemma about the windows or about the longest of them. -/
theorem crownFacts : Obligations.CrownFacts := fun g =>
  ⟨crownRankOf_range g, crownQtyOf_crownRankOf_eq_zero_iff.symm, fun _ _ hL _ h => h.inner hL,
    crownRankOf_eq_zero_iff, fun _ => isPal_opposite_iff.symm, crownQtyOf_64,
    fun h => ⟨isPal_of_constant h, crown_of_constant h⟩⟩

section
variable {g : Grid}

/-- Cells at equal distance from the middle of an odd window have the same parity (R126). -/
theorem isPal_of_alternating (h : ∀ r (c : Sector), g.cell r c = decide (c.val % 2 = 1)) (s : Sector) :
    IsPal g s 63 := by
  intro r k hk
  rw [h, h, decide_eq_decide]
  simp only [sectorOf]
  omega

/-- The two middle cells of a full window differ. -/
theorem not_isPal_64_of_alternating (h : ∀ r (c : Sector), g.cell r c = decide (c.val % 2 = 1)) (s : Sector) :
    ¬ IsPal g s 64 := by
  intro hpal
  have hmiddle := hpal 0 31 (by decide)
  rw [h, h, decide_eq_decide] at hmiddle
  simp only [sectorOf] at hmiddle
  omega

theorem crown_of_alternating (h : ∀ r (c : Sector), g.cell r c = decide (c.val % 2 = 1)) : crown g = (63, 64) := by
  refine crown_eq_of_all_isPal (by decide) (by decide) (isPal_of_alternating h) fun K s hlt hle => ?_
  obtain rfl : K = 64 := by omega
  exact not_isPal_64_of_alternating h s

end

/-- Settles O38: the crowns of the two grids, and their texts evaluated. -/
theorem crownOfConstantAndAlternatingRows : Obligations.CrownOfConstantAndAlternatingRows := by
  refine ⟨fun g h => ?_, fun g h => ?_⟩
  · rw [crown_of_constant h]
    exact ⟨rfl, by decide⟩
  · rw [crown_of_alternating h]
    exact ⟨rfl, by decide⟩

/-! ## The Crown string -/

theorem crownText_zero (qty : Nat) : crownText 0 qty = [0x6E, 0x6F, 0x6E, 0x65] := if_pos rfl

theorem crownText_of_ne_zero {rank : Nat} (h : rank ≠ 0) (qty : Nat) :
    crownText rank qty = dec rank ++ [0x3A] ++ dec qty := if_neg h

theorem dec_length_pos (n : Nat) : 0 < (dec n).length := by
  rw [dec, decDigits]
  split <;> simp

theorem three_le_crownText_length (rank qty : Nat) : 3 ≤ (crownText rank qty).length := by
  by_cases h : rank = 0
  · simp [h, crownText_zero]
  · have hrank := dec_length_pos rank
    have hqty := dec_length_pos qty
    simp only [crownText_of_ne_zero h, List.length_append, List.length_singleton]
    omega

/-- Settles O39: the two forms, and the lengths of two decimal numbers of one or two digits. -/
theorem crownTextForms : Obligations.CrownTextForms :=
  ⟨crownText_zero, fun _ qty h => crownText_of_ne_zero h qty, by decide, by decide, fun rank qty _ hr _ hq =>
    ⟨three_le_crownText_length rank qty, crownText_length_le rank qty (by omega) (by omega)⟩⟩

/-! ## The command -/

namespace Machine

theorem commandBody_crown_of_invalid {s : State} (hv : s.gridV = false) :
    commandBody .crown s = s.raise (encode .crown) .noGrid := needGrid_of_invalid hv _ _

theorem commandBody_crown_of_valid {s : State} (hv : s.gridV = true) :
    commandBody .crown s = s.writeCrown := needGrid_of_valid hv _ _

/-- Settles O23: CROWN raises or writes as `GRID_V` says, and the crown and its text fit their registers. -/
theorem crownWritesItsFourRegisters : Obligations.CrownWritesItsFourRegisters := by
  refine fun s => ⟨exec_of_halted .crown, fun hs hv => ?_, fun hs hv =>
    ⟨s.writeCrown.crownRank, s.writeCrown.crownQty, s.writeCrown.crownTxtLen, s.writeCrown.crownTxt, s.writeCrown.draws,
      toNat_writeCrown_crownRank s, toNat_writeCrown_crownQty s, toNat_writeCrown_crownTxtLen s,
      some_writeCrown_crownTxt_get s, ?_⟩⟩
  · rw [exec_of_running .crown hs, commandBody_crown_of_invalid hv]
    rfl
  · rw [exec_of_running .crown hs, commandBody_crown_of_valid hv]
    rfl

end Machine

end Sys2Proof
end

section
/-! PROOFS. The text formats of a document: decimal text (44_assemble.md R136), the angle texts (R137) and the hex lines
(R139). -/

namespace Sys2Proof

/-! ## Decimal text -/

/-- The number with the decimal digits `ds`, most significant first. -/
def decimalValue (ds : List Nat) : Nat := ds.foldl (fun acc d => 10 * acc + d) 0

theorem decimalValue_concat (ds : List Nat) (d : Nat) : decimalValue (ds ++ [d]) = 10 * decimalValue ds + d := by
  simp [decimalValue]

/-- Mathlib's digits stand the other way round. -/
theorem decimalValue_reverse (ds : List Nat) : decimalValue ds.reverse = Nat.ofDigits 10 ds := by
  induction ds with
  | nil => rfl
  | cons d ds ih =>
    rw [List.reverse_cons, decimalValue_concat, ih, Nat.ofDigits_cons, Nat.add_comm]

/-- The decimal digits of `n`, most significant first; the one digit `0` for `0`. -/
def decimalDigits (n : Nat) : List Nat := if n = 0 then [0] else (Nat.digits 10 n).reverse

theorem decimalDigits_of_ne_zero {n : Nat} (hn : n ≠ 0) : decimalDigits n = (Nat.digits 10 n).reverse := if_neg hn

theorem decimalDigits_lt (n : Nat) : ∀ d ∈ decimalDigits n, d < 10 := by
  intro d hd
  by_cases hn : n = 0
  · have : d = 0 := by simpa [hn, decimalDigits] using hd
    omega
  · rw [decimalDigits_of_ne_zero hn, List.mem_reverse] at hd
    exact Nat.digits_lt_base (by decide) hd

theorem decimalValue_decimalDigits (n : Nat) : decimalValue (decimalDigits n) = n := by
  by_cases hn : n = 0
  · rw [hn]
    rfl
  · rw [decimalDigits_of_ne_zero hn, decimalValue_reverse, Nat.ofDigits_digits]

theorem decimalDigits_ne_nil (n : Nat) : decimalDigits n ≠ [] := by
  by_cases hn : n = 0
  · simp [hn, decimalDigits]
  · simpa [decimalDigits_of_ne_zero hn, Nat.digits_ne_nil_iff_ne_zero] using hn

/-- No leading zero. -/
theorem decimalDigits_head?_ne_zero {n : Nat} (hn : n ≠ 0) : (decimalDigits n).head? ≠ some 0 := by
  rw [decimalDigits_of_ne_zero hn, List.head?_reverse,
    List.getLast?_eq_some_getLast (Nat.digits_ne_nil_iff_ne_zero.2 hn)]
  exact fun h => Nat.getLast_digit_ne_zero 10 hn (Option.some.inj h)

theorem ascii_toNat {d : Nat} (hd : d < 10) : (ascii d).toNat = 0x30 + d := by
  rw [ascii, BitVec.toNat_ofNat]
  omega

theorem ascii_eq_zero_iff {d : Nat} (hd : d < 10) : ascii d = 0x30 ↔ d = 0 := by
  rw [← BitVec.toNat_inj, ascii_toNat hd]
  simp

/-- Repeated division by 10 finds the digits from the least significant on, as `Nat.digits` does. -/
theorem decDigits_eq_digits {fuel n : Nat} (hfuel : n < fuel) (hn : n ≠ 0) :
    decDigits fuel n = (Nat.digits 10 n).reverse.map ascii := by
  induction fuel generalizing n with
  | zero => omega
  | succ fuel ih =>
    rw [decDigits]
    by_cases hlt : n < 10
    · simp [hlt, Nat.digits_of_lt 10 n hn hlt]
    · have hdigits : Nat.digits 10 n = n % 10 :: Nat.digits 10 (n / 10) := Nat.digits_def' (by decide) (by omega)
      simp [hlt, hdigits, ih (n := n / 10) (by omega) (by omega)]

theorem dec_eq_decimalDigits (n : Nat) : dec n = (decimalDigits n).map ascii := by
  by_cases hn : n = 0
  · rw [hn]
    rfl
  · rw [decimalDigits_of_ne_zero hn, dec, decDigits_eq_digits (Nat.lt_succ_self n) hn]

/-- The value of a decimal text, read byte by byte, is that of its digits. -/
theorem foldl_map_ascii {ds : List Nat} (hds : ∀ d ∈ ds, d < 10) :
    (ds.map ascii).foldl (fun acc b => 10 * acc + (b.toNat - 0x30)) 0 = decimalValue ds := by
  rw [List.foldl_map]
  refine List.foldl_ext _ _ 0 fun acc d hd => ?_
  rw [ascii_toNat (hds d hd), Nat.add_sub_cancel_left]

/-- Settles O40: `dec n` is the text of the decimal digits of `n`, and each property is one of these digits. -/
theorem decIsTheNaturalDecimalText : Obligations.DecIsTheNaturalDecimalText := by
  refine ⟨by decide, fun n => ?_⟩
  rw [dec_eq_decimalDigits, foldl_map_ascii (decimalDigits_lt n)]
  refine ⟨by simpa using decimalDigits_ne_nil n, fun b hb => ?_, fun hn hhead => ?_, decimalValue_decimalDigits n⟩
  · obtain ⟨d, hd, rfl⟩ := List.mem_map.1 hb
    have hlt := decimalDigits_lt n d hd
    rw [ascii_toNat hlt]
    omega
  · obtain ⟨d, hd, hascii⟩ := Option.map_eq_some_iff.1 (List.head?_map.symm.trans hhead)
    have hzero := (ascii_eq_zero_iff (decimalDigits_lt n d (List.mem_of_head? hd))).1 hascii
    exact decimalDigits_head?_ne_zero hn (hzero ▸ hd)

/-! ## The angle texts -/

/-- `ds` without its trailing zeros. -/
def trimDigits (ds : List Nat) : List Nat := ds.rdropWhile (· == 0)

theorem trimDigits_concat (ds : List Nat) (d : Nat) :
    trimDigits (ds ++ [d]) = if d = 0 then trimDigits ds else ds ++ [d] := by
  simp [trimDigits, List.rdropWhile_concat]

theorem trimDigits_prefix (ds : List Nat) : trimDigits ds <+: ds := List.rdropWhile_prefix _ _

theorem trimDigits_getLast?_ne_zero (ds : List Nat) : (trimDigits ds).getLast? ≠ some 0 := by
  induction ds using List.reverseRecOn with
  | nil => exact nofun
  | append_singleton ds d ih =>
    rw [trimDigits_concat]
    split
    · exact ih
    · simpa

/-- Each digit that is trimmed was worth a factor of 10. -/
theorem decimalValue_trimDigits (ds : List Nat) :
    decimalValue (trimDigits ds) * 10 ^ (ds.length - (trimDigits ds).length) = decimalValue ds := by
  induction ds using List.reverseRecOn with
  | nil => rfl
  | append_singleton ds d ih =>
    rw [trimDigits_concat]
    split
    case isTrue hd =>
      have hle := (trimDigits_prefix ds).length_le
      rw [List.length_append, List.length_singleton, Nat.sub_add_comm hle, Nat.pow_succ, ← Nat.mul_assoc, ih, hd,
        decimalValue_concat, Nat.mul_comm, Nat.add_zero]
    case isFalse => simp

theorem trimZeros_eq_rdropWhile (t : Bytes) : trimZeros t = t.rdropWhile (· == 0x30) := rfl

/-- The bytes that R137 trims are the zero digits. -/
theorem trimZeros_map_ascii {ds : List Nat} (hds : ∀ d ∈ ds, d < 10) :
    trimZeros (ds.map ascii) = (trimDigits ds).map ascii := by
  rw [trimZeros_eq_rdropWhile]
  induction ds using List.reverseRecOn with
  | nil => rfl
  | append_singleton ds d ih =>
    have hinit : ∀ e ∈ ds, e < 10 := fun e he => hds e (List.mem_append_left _ he)
    have hzero : ascii d = 0x30 ↔ d = 0 := ascii_eq_zero_iff (hds d (by simp))
    rw [List.map_append, List.map_singleton, List.rdropWhile_concat, ih hinit, trimDigits_concat,
      apply_ite (List.map ascii)]
    simp only [beq_iff_eq, hzero, List.map_append, List.map_singleton]

/-- The three digits of a number of thousandths (R137). -/
def thousandthDigits (fr : Nat) : List Nat := [fr / 100, fr / 10 % 10, fr % 10]

theorem thousandthDigits_lt {fr : Nat} (hfr : fr < 1000) : ∀ d ∈ thousandthDigits fr, d < 10 := by
  simp only [thousandthDigits, List.forall_mem_cons, List.not_mem_nil, false_implies, implies_true, and_true]
  omega

theorem decimalValue_thousandthDigits (fr : Nat) : decimalValue (thousandthDigits fr) = fr := by
  simp only [decimalValue, thousandthDigits, List.foldl_cons, List.foldl_nil]
  omega

theorem angleText_of_whole {s : Sector} (h : s.val * 5625 % 1000 = 0) : angleText s = dec (s.val * 5625 / 1000) :=
  if_pos h

theorem angleText_of_fraction {s : Sector} (h : s.val * 5625 % 1000 ≠ 0) :
    angleText s = dec (s.val * 5625 / 1000) ++ [0x2E] ++
      (trimDigits (thousandthDigits (s.val * 5625 % 1000))).map ascii := by
  rw [← trimZeros_map_ascii (thousandthDigits_lt (Nat.mod_lt _ (by decide)))]
  exact if_neg h

/-- Settles O41: the fraction digits are the three of the thousandths, trimmed; trimming leaves one, as the value is not
zero. -/
theorem angleTextsAreExactDecimals : Obligations.AngleTextsAreExactDecimals := by
  intro s
  split
  case isTrue hwhole => exact angleText_of_whole hwhole
  case isFalse hfraction =>
    have hprefix := trimDigits_prefix (thousandthDigits (s.val * 5625 % 1000))
    have hvalue := (decimalValue_trimDigits (thousandthDigits (s.val * 5625 % 1000))).trans
      (decimalValue_thousandthDigits _)
    refine ⟨trimDigits (thousandthDigits (s.val * 5625 % 1000)), fun hnil => hfraction ?_, hprefix.length_le,
      fun d hd => ?_, trimDigits_getLast?_ne_zero _, hvalue, angleText_of_fraction hfraction⟩
    · rw [← hvalue, hnil]
      exact Nat.zero_mul _
    · exact thousandthDigits_lt (Nat.mod_lt _ (by decide)) d (hprefix.subset hd)

/-! ## The hex lines -/

/-- Where each element gives two, element `i` gives those at `2 i` and `2 i + 1`. -/
theorem getElem?_flatMap_pair {α β : Type} (f g : α → β) (l : List α) (i : Nat) :
    (l.flatMap fun x => [f x, g x])[2 * i]? = l[i]?.map f ∧
    (l.flatMap fun x => [f x, g x])[2 * i + 1]? = l[i]?.map g := by
  induction l generalizing i with
  | nil => simp
  | cons x l ih =>
    cases i with
    | zero => exact ⟨rfl, rfl⟩
    | succ i => simpa [Nat.mul_add] using ih i

theorem hex16_getElem? (S : Seed) (j : Fin 4) (b : Fin 8) :
    (hex16 S j)[2 * b.val]? = some (hexchar ((S.get ⟨8 * j.val + b.val, by omega⟩).toNat / 16)) ∧
    (hex16 S j)[2 * b.val + 1]? = some (hexchar ((S.get ⟨8 * j.val + b.val, by omega⟩).toNat % 16)) := by
  have hb : (List.finRange 8)[b.val]? = some b := by simp
  obtain ⟨hhigh, hlow⟩ := getElem?_flatMap_pair
    (fun b : Fin 8 => hexchar ((S.get ⟨8 * j.val + b.val, by omega⟩).toNat / 16))
    (fun b : Fin 8 => hexchar ((S.get ⟨8 * j.val + b.val, by omega⟩).toNat % 16)) (List.finRange 8) b.val
  rw [hb] at hhigh hlow
  exact ⟨hhigh, hlow⟩

/-- Settles O42: each seed byte of the line gives two bytes of text. -/
theorem hexLinesShowTheSeed : Obligations.HexLinesShowTheSeed := by
  unfold Obligations.HexLinesShowTheSeed
  intro digit S j
  have hdigit : hexchar = digit := by
    funext n
    by_cases hn : n < 10
    · simp only [hexchar, digit, hn, if_true]
    · simp only [hexchar, digit, hn, if_false, Nat.add_sub_assoc (Nat.le_of_not_lt hn)]
  exact hdigit ▸ ⟨hex16_length S j, hex16_getElem? S j⟩

end Sys2Proof
end

section
/-! PROOFS. The document (44_assemble.md R132, R142) and ASM, which writes it or faults (R130, R140, R141). -/

namespace Sys2Proof

/-! ## The document -/

theorem docSector_eq (cfg : Config) (G : Grid) (F : FragStore) (s : Sector) :
    docSector cfg G F s = cfg.tokRotA ++ angleText s ++ cfg.tokRotB
      ++ docShape cfg G F s 0 ++ docShape cfg G F s 1 ++ docShape cfg G F s 2 ++ docShape cfg G F s 3
      ++ cfg.tokRotC := by
  simp [docSector, List.finRange_succ]

theorem assemble_eq (cfg : Config) (S : Seed) (G : Grid) (F : FragStore) :
    assemble cfg S G F = F.bytes fragHead ++ ((List.finRange 64).map (docSector cfg G F)).flatten
      ++ docLine cfg S F 0 ++ docLine cfg S F 1 ++ docLine cfg S F 2 ++ docLine cfg S F 3 ++ F.bytes fragTail := by
  have hlines : (List.finRange 4).flatMap (docLine cfg S F) =
      docLine cfg S F 0 ++ (docLine cfg S F 1 ++ (docLine cfg S F 2 ++ docLine cfg S F 3)) := by
    simp [List.finRange_succ]
  rw [assemble, hlines, List.flatMap_def]
  simp only [List.append_assoc]

/-- Settles O43: sectors and lines one by one, with the number of each fragment's id. -/
theorem documentIsTheFixedConcatenation : Obligations.DocumentIsTheFixedConcatenation := by
  intro cfg S G F colour sector
  have hsector : docSector cfg G F = sector := funext (docSector_eq cfg G F)
  rw [assemble_eq, hsector]
  rfl

/-- Settles O44: the sum is the definition's, with the number of each fragment's id. -/
theorem documentLengthIsTheSumOfItsPieces : Obligations.DocumentLengthIsTheSumOfItsPieces :=
  fun cfg S F => ⟨rfl, assemble_length cfg S F⟩

/-! ## The command -/

namespace Machine

section
variable {s : State} {w : Byte}

theorem assembleDoc_of_noSeed (hs : s.seedV = false) : s.assembleDoc w = s.raise w .noSeed := by
  rw [State.assembleDoc, needSeed_of_invalid hs]

theorem assembleDoc_of_noGrid (hs : s.seedV = true) (hg : s.gridV = false) :
    s.assembleDoc w = s.raise w .noGrid := by
  rw [State.assembleDoc, needSeed_of_valid hs, needGrid_of_invalid hg]

theorem assembleDoc_of_lowestAbsent (hs : s.seedV = true) (hg : s.gridV = true) {id : Fin 10}
    (hid : lowestAbsent s.frags id) : s.assembleDoc w = s.withdrawDoc.raise w (.fragMissing id) := by
  rw [State.assembleDoc, needSeed_of_valid hs, needGrid_of_valid hg, State.needFragments,
    FragStore.firstMissing_eq_some.2 hid]

theorem assembleDoc_of_overflow (hs : s.seedV = true) (hg : s.gridV = true) (hF : complete s.frags)
    (hlong : s.docLength > s.cfg.docMax) : s.assembleDoc w = s.withdrawDoc.raise w .docOverflow := by
  rw [State.assembleDoc, needSeed_of_valid hs, needGrid_of_valid hg, State.needFragments,
    FragStore.firstMissing_eq_none.2 hF]
  exact if_pos hlong

end

theorem exec_asm_of_running {s : State} (hf : s.fault = false) :
    exec .asm s = .next (s.assembleDoc (encode .asm)) := exec_of_running .asm hf

/-- Settles O24: one equation of the body for each test of R130, and what it stores when all are passed. -/
theorem asmWritesTheDocumentOrFaults : Obligations.AsmWritesTheDocumentOrFaults := by
  refine fun s => ⟨exec_of_halted .asm, fun hf hs => ?_, fun hf hs hg => ?_, fun hf hs hg id hid => ?_,
    fun hf hs hg hF hlong => ?_, fun hf hs hg hgrid hF hroom => ?_⟩
  · rw [exec_asm_of_running hf, assembleDoc_of_noSeed hs]
    rfl
  · rw [exec_asm_of_running hf, assembleDoc_of_noGrid hs hg]
    rfl
  · rw [exec_asm_of_running hf, assembleDoc_of_lowestAbsent hs hg hid]
    rfl
  · rw [exec_asm_of_running hf, assembleDoc_of_overflow hs hg hF hlong]
    rfl
  · obtain ⟨-, hlen, hread⟩ := storeDocument_holdsDocOf hgrid hF hroom
    refine ⟨s.storeDocument.doc, s.storeDocument.docLen, toNat_storeDocument_docLen hroom, hlen.symm, hread, ?_⟩
    rw [exec_asm_of_running hf, assembleDoc_of_ready hs hg (FragStore.firstMissing_eq_none.2 hF) hroom]
    rfl

/-- ASM raises before the first byte of `DOC`, or it stores the document. -/
theorem assembleDoc_doc_cases (s : State) (w : Byte) :
    (s.assembleDoc w).doc = s.doc ∨ s.assembleDoc w = s.storeDocument := by
  rcases assembleDoc_cases s w with ⟨-, he⟩ | ⟨-, -, he⟩ | ⟨id, -, -, -, he⟩ | ⟨-, -, -, -, he⟩ | ⟨-, -, -, -, he⟩
  · exact .inl (by simp [he])
  · exact .inl (by simp [he])
  · exact .inl (by simp [he])
  · exact .inl (by simp [he])
  · exact .inr he

theorem storeDocument_doc_read_ge (s : State) {k : Nat} (hk : s.docLength ≤ k) :
    s.storeDocument.doc.read k = s.doc.read k :=
  Memory.read_storeFromZero_ge _ _ ((List.length_take_le _ _).trans hk)

/-- Settles O25: ASM leaves `DOC`, or stores the first `docLength` bytes of the document and does not fault. -/
theorem asmStoresOnlyInsideTheDocument : Obligations.AsmStoresOnlyInsideTheDocument := by
  intro s t ht
  rcases s.fault.eq_false_or_eq_true with hf | hf
  · rw [exec_of_halted .asm hf] at ht
    cases ht
    exact ⟨fun _ _ => rfl, fun _ _ => rfl⟩
  · rw [exec_asm_of_running hf] at ht
    cases ht
    rcases assembleDoc_doc_cases s (encode .asm) with hdoc | hstore
    · rw [hdoc]
      exact ⟨fun _ _ => rfl, fun _ _ => rfl⟩
    · rw [hstore]
      refine ⟨fun hraised => ?_, fun _ => storeDocument_doc_read_ge s⟩
      exact absurd (hf.symm.trans hraised) nofun

end Machine

end Sys2Proof
end

section
/-! PROOFS. NOP and QUERY (45_query_and_control.md): NOP writes nothing (R160), QUERY leaves the results of the seed on
`seed_in` and then does as ASM does (R161), and it ends as the six commands one by one (R162). -/

namespace Sys2Proof.Machine

/-! ## NOP -/

/-- Settles O17: halted or not, the body of NOP writes nothing. -/
theorem nopChangesNothing : Obligations.NopChangesNothing := by
  intro s
  rcases s.fault.eq_false_or_eq_true with hf | hf
  · exact exec_of_halted .nop hf
  · exact exec_of_running .nop hf

/-! ## QUERY and the six commands -/

theorem exec_eq_next_of_commandBody {i : Instr} {s t : State} (hs : s.fault = false) (ht : commandBody i s = t) :
    exec i s = .next t := ht ▸ exec_of_running i hs

/-- One fault raised while two words execute differs in `ERR_CMD` only. -/
theorem errCmd_of_raise {s t t' : State} {w w' : Byte} {k : FaultKind} (ht : t = s.raise w k)
    (ht' : t' = s.raise w' k) : t.errCmd = w ∧ t' = { t with errCmd := w' } := by
  subst ht ht'
  exact ⟨rfl, rfl⟩

/-- A document is stored alike under any command word. -/
theorem assembleDoc_word_of_running {s : State} {w : Byte} (hf : (s.assembleDoc w).fault = false) (w' : Byte) :
    s.assembleDoc w' = s.assembleDoc w := by
  obtain ⟨hs, hg, hm, hroom, he⟩ := assembleDoc_running hf
  rw [he, assembleDoc_of_ready hs hg hm hroom]

/-- No test of ASM reads the command word, so each raises the same fault under another one. -/
theorem assembleDoc_word_of_raised {s : State} {w : Byte} (hs : s.fault = false)
    (hf : (s.assembleDoc w).fault = true) (w' : Byte) :
    (s.assembleDoc w).errCmd = w ∧ s.assembleDoc w' = { s.assembleDoc w with errCmd := w' } := by
  rcases assembleDoc_cases s w with ⟨hv, he⟩ | ⟨hv, hg, he⟩ | ⟨id, hv, hg, hm, he⟩ | ⟨hv, hg, hm, hlong, he⟩ |
    ⟨-, -, -, -, he⟩
  · exact errCmd_of_raise he (assembleDoc_of_noSeed hv)
  · exact errCmd_of_raise he (assembleDoc_of_noGrid hv hg)
  · exact errCmd_of_raise he (assembleDoc_of_lowestAbsent hv hg (FragStore.firstMissing_eq_some.1 hm))
  · exact errCmd_of_raise he (assembleDoc_of_overflow hv hg (FragStore.firstMissing_eq_none.1 hm) hlong)
  · rw [he, State.storeDocument_fault, hs] at hf
    cases hf

/-! The first five bodies leave what ASM's tests and writes read as it was, or write it from `seed_in`. -/

section
variable (s : State)

@[simp] theorem runTraits_seed : s.runTraits.seed = seedOfPort s.seedIn := by simp [State.runTraits]
@[simp] theorem runTraits_grid : s.runTraits.grid = decodeGrid (seedOfPort s.seedIn) := by simp [State.runTraits]
@[simp] theorem runTraits_seedV : s.runTraits.seedV = true := by simp [State.runTraits]
@[simp] theorem runTraits_gridV : s.runTraits.gridV = true := by simp [State.runTraits]
@[simp] theorem runTraits_fault : s.runTraits.fault = s.fault := by simp [State.runTraits]
@[simp] theorem runTraits_errCode : s.runTraits.errCode = s.errCode := by simp [State.runTraits]
@[simp] theorem runTraits_errInfo : s.runTraits.errInfo = s.errInfo := by simp [State.runTraits]
@[simp] theorem runTraits_errCmd : s.runTraits.errCmd = s.errCmd := by simp [State.runTraits]
@[simp] theorem runTraits_doc : s.runTraits.doc = s.doc := by simp [State.runTraits]
@[simp] theorem runTraits_cfg : s.runTraits.cfg = s.cfg := by simp [State.runTraits]
@[simp] theorem runTraits_frags : s.runTraits.frags = s.frags := by simp [State.runTraits]

@[simp] theorem runTraits_docLength :
    s.runTraits.docLength = docLength s.cfg (seedOfPort s.seedIn) s.frags := by simp [State.docLength]

end

/-- Settles O27: each command finds the flag it tests set by one before it, and the last step is ASM's, under the word
of ASM or of QUERY. -/
theorem queryEqualsTheSplitSequence : Obligations.QueryEqualsTheSplitSequence := by
  intro s hs
  have hlast : s.runTraits.fault = false := (runTraits_fault s).trans hs
  exact ⟨s.loadSeed, s.loadSeed.writeGrid, s.loadSeed.writeGrid.writeEven, s.loadSeed.writeGrid.writeEven.writePassages,
    s.runTraits, s.runTraits.assembleDoc (encode .asm), s.runPipeline,
    exec_of_running .ldseed hs,
    exec_eq_next_of_commandBody (by simp [hs]) (commandBody_decode_of_valid (by simp)),
    exec_eq_next_of_commandBody (by simp [hs]) (commandBody_even_of_valid (by simp)),
    exec_eq_next_of_commandBody (by simp [hs]) (commandBody_pass_of_valid (by simp)),
    exec_eq_next_of_commandBody (by simp [hs]) (commandBody_crown_of_valid (by simp)),
    exec_asm_of_running hlast,
    exec_of_running .query hs,
    fun hf => (runPipeline_eq s).trans (assembleDoc_word_of_running hf _),
    fun hf => runPipeline_eq s ▸ assembleDoc_word_of_raised hlast hf _⟩

/-! ## The registers of the seed -/

/-- The registers from `SEED` to `CROWN_TXT_LEN` are valid and hold the results for the seed `S` (10_state.md R34). -/
structure State.HoldsTraitsOf (t : State) (S : Seed) : Prop where
  seedV : t.seedV = true
  gridV : t.gridV = true
  evenV : t.evenV = true
  passV : t.passV = true
  crownV : t.crownV = true
  seed : t.seed = S
  grid : t.grid = decodeGrid t.seed
  evenScore : t.evenScore.toNat = (evenness t.seed).1
  evenLabel : t.evenLabel = (evenness t.seed).2
  passages : t.passages.toNat = countPassages t.grid
  crownRank : t.crownRank.toNat = (crown t.grid).1
  crownQty : t.crownQty.toNat = (crown t.grid).2
  crownTxtLen : t.crownTxtLen.toNat = (crownText (crown t.grid).1 (crown t.grid).2).length
  crownTxt : ∀ k : Fin 5, k.val < t.crownTxtLen.toNat →
    some (t.crownTxt.get k) = (crownText (crown t.grid).1 (crown t.grid).2)[k.val]?

/-- Each write of QUERY reads the seed and the grid that LDSEED and DECODE left, and no later one touches its result. -/
theorem runTraits_holdsTraitsOf (s : State) : s.runTraits.HoldsTraitsOf (seedOfPort s.seedIn) where
  seedV := rfl
  gridV := rfl
  evenV := rfl
  passV := rfl
  crownV := rfl
  seed := rfl
  grid := rfl
  evenScore := toNat_writeEven_evenScore s.loadSeed.writeGrid
  evenLabel := rfl
  passages := toNat_writePassages_passages s.loadSeed.writeGrid.writeEven
  crownRank := toNat_writeCrown_crownRank s.loadSeed.writeGrid.writeEven.writePassages
  crownQty := toNat_writeCrown_crownQty s.loadSeed.writeGrid.writeEven.writePassages
  crownTxtLen := toNat_writeCrown_crownTxtLen s.loadSeed.writeGrid.writeEven.writePassages
  crownTxt := some_writeCrown_crownTxt_get s.loadSeed.writeGrid.writeEven.writePassages

section
variable {t : State} {S : Seed} (h : t.HoldsTraitsOf S)
include h

theorem State.HoldsTraitsOf.raise (w : Byte) (k : FaultKind) : (t.raise w k).HoldsTraitsOf S := { h with }

theorem State.HoldsTraitsOf.withdrawDoc : t.withdrawDoc.HoldsTraitsOf S := { h with }

theorem State.HoldsTraitsOf.storeDocument : t.storeDocument.HoldsTraitsOf S := { h with }

/-- ASM writes none of these registers. -/
theorem State.HoldsTraitsOf.assembleDoc (w : Byte) : (t.assembleDoc w).HoldsTraitsOf S := by
  rcases assembleDoc_cases t w with ⟨-, he⟩ | ⟨-, -, he⟩ | ⟨id, -, -, -, he⟩ | ⟨-, -, -, -, he⟩ | ⟨-, -, -, -, he⟩
  · exact he ▸ h.raise w _
  · exact he ▸ h.raise w _
  · exact he ▸ h.withdrawDoc.raise w _
  · exact he ▸ h.withdrawDoc.raise w _
  · exact he ▸ h.storeDocument

/-- The five flags of these registers are 1 in `STATUS` (10_state.md R26). -/
theorem State.HoldsTraitsOf.status : t.status = BitVec.ofBool t.fault ++ (0 : BitVec 1) ++ BitVec.ofBool t.docV ++
    (0x1F : BitVec 5) := by
  simp only [State.status, h.seedV, h.gridV, h.evenV, h.passV, h.crownV]
  cases t.fault <;> cases t.docV <;> rfl

end

theorem runPipeline_holdsTraitsOf (s : State) : s.runPipeline.HoldsTraitsOf (seedOfPort s.seedIn) :=
  runPipeline_eq s ▸ (runTraits_holdsTraitsOf s).assembleDoc _

theorem runPipeline_samePorts (s : State) : s.SamePorts s.runPipeline := commandBody_samePorts .query s

/-! ## The document of QUERY -/

section
variable {s : State}

theorem runPipeline_of_room (hF : complete s.frags)
    (hroom : docLength s.cfg (seedOfPort s.seedIn) s.frags ≤ s.cfg.docMax) :
    s.runPipeline = s.runTraits.storeDocument := by
  rw [runPipeline_eq, assembleDoc_of_ready (runTraits_seedV s) (runTraits_gridV s)
    (by simpa using FragStore.firstMissing_eq_none.2 hF) (by simpa using hroom)]

theorem runPipeline_of_lowestAbsent {id : Fin 10} (hid : lowestAbsent s.frags id) :
    s.runPipeline = s.runTraits.withdrawDoc.raise (encode .query) (.fragMissing id) := by
  rw [runPipeline_eq, assembleDoc_of_lowestAbsent (runTraits_seedV s) (runTraits_gridV s) (by simpa using hid)]

theorem runPipeline_of_overflow (hF : complete s.frags)
    (hlong : docLength s.cfg (seedOfPort s.seedIn) s.frags > s.cfg.docMax) :
    s.runPipeline = s.runTraits.withdrawDoc.raise (encode .query) .docOverflow := by
  rw [runPipeline_eq, assembleDoc_of_overflow (runTraits_seedV s) (runTraits_gridV s) (by simpa using hF)
    (by simpa using hlong)]

/-- What QUERY leaves when it stores the document. -/
theorem runPipeline_stored (hs : s.fault = false) (hF : complete s.frags)
    (hroom : docLength s.cfg (seedOfPort s.seedIn) s.frags ≤ s.cfg.docMax) :
    s.runPipeline.status = 0x3F ∧ s.SameErr s.runPipeline ∧ s.runPipeline.HoldsDocOf s.frags ∧
      ∀ k, s.runPipeline.docLen.toNat ≤ k → s.runPipeline.doc.read k = s.doc.read k := by
  have hfits : s.runTraits.docLength ≤ s.runTraits.cfg.docMax := by simpa using hroom
  have hF' : complete s.runTraits.frags := by simpa using hF
  have hgrid : s.runTraits.grid = decodeGrid s.runTraits.seed := by simp
  rw [runPipeline_of_room hF hroom]
  refine ⟨?_, by simp [State.SameErr], ?_, fun k hk => ?_⟩
  · rw [(runTraits_holdsTraitsOf s).storeDocument.status, State.storeDocument_fault, runTraits_fault, hs,
      State.storeDocument_docV]
    rfl
  · exact runTraits_frags s ▸ storeDocument_holdsDocOf hgrid hF' hfits
  · rw [storeDocument_doc_read_ge _ (toNat_storeDocument_docLen hfits ▸ hk), runTraits_doc]

/-- What QUERY leaves when it raises `f`, whichever of its two faults that is. -/
theorem runPipeline_raised {f : FaultKind} (h : s.runPipeline = s.runTraits.withdrawDoc.raise (encode .query) f) :
    s.runPipeline.status = 0x9F ∧ s.runPipeline.errCode = faultCode f ∧ s.runPipeline.errInfo = faultInfo f ∧
      s.runPipeline.errCmd = 0x07 ∧ s.runPipeline.docLen = 0 ∧ s.runPipeline.doc = s.doc := by
  rw [h]
  refine ⟨?_, rfl, rfl, rfl, rfl, by simp⟩
  rw [((runTraits_holdsTraitsOf s).withdrawDoc.raise _ f).status, State.raise_fault, State.raise_docV,
    State.withdrawDoc_docV]
  rfl

end

theorem toNat_faultInfo_fragMissing (id : Fin 10) : (faultInfo (.fragMissing id)).toNat = id.val :=
  Nat.mod_eq_of_lt (by omega)

/-- Settles O26: the trait registers are as the first five bodies left them, and ASM's tests part the three outcomes. -/
theorem queryRunsTheWholePipeline : Obligations.QueryRunsTheWholePipeline := by
  refine fun s => ⟨exec_of_halted .query, fun hs => ⟨s.runPipeline, exec_of_running .query hs, ?_⟩⟩
  have ht := runPipeline_holdsTraitsOf s
  obtain ⟨hcfg, hseedIn, hfrags, hdocAddr, hhost⟩ := runPipeline_samePorts s
  refine ⟨ht.seed, ht.grid, ht.evenScore, ht.evenLabel, ht.passages, ht.crownRank, ht.crownQty, ht.crownTxtLen,
    ht.crownTxt, hcfg.symm, hseedIn.symm, hfrags.symm, hdocAddr.symm, hhost.symm, fun hF hroom => ?_, fun id hid => ?_,
    fun hF hlong => ?_⟩
  · rw [ht.seed] at hroom
    obtain ⟨hstatus, ⟨hcode, hinfo, hcmd⟩, ⟨-, hlen, hread⟩, hkept⟩ := runPipeline_stored hs hF hroom
    rw [← hcfg] at hlen hread
    exact ⟨hstatus, hcode, hinfo, hcmd, hlen, hread, hkept⟩
  · obtain ⟨hstatus, hcode, hinfo, hcmd, hlen, hdoc⟩ := runPipeline_raised (runPipeline_of_lowestAbsent hid)
    exact ⟨hstatus, hcode, hinfo ▸ toNat_faultInfo_fragMissing id, hcmd, hlen, hdoc⟩
  · rw [ht.seed] at hlong
    exact runPipeline_raised (runPipeline_of_overflow hF hlong)

end Sys2Proof.Machine
end

section
/-! PROOFS. Faults and the halt (60_exceptions.md): a halted block ignores every word (R174), an idle one keeps its state
(R185), and a command reports the first fault of R176 that applies. -/

namespace Sys2Proof.Machine

/-! ## The halted and the idle block -/

/-- Settles O13: the test of `FAULT` comes first, for a word as for a command. -/
theorem haltedBlockIgnoresEveryCommand : Obligations.HaltedBlockIgnoresEveryCommand :=
  fun _ hs => ⟨fun w => takeCommand_halted w hs, fun i => exec_of_halted i hs⟩

theorem step_of_idle {s : State} (h : s.host = []) : step s = .next s := by
  rw [step, nextAction, h]

/-- Settles O6: a step with nothing pending answers the state it was given. -/
theorem idleBlockKeepsItsState : Obligations.IdleBlockKeepsItsState := fun _ => step_of_idle

/-! ## The order of the fault tests -/

/-- `t` is halted by the fault `k`, raised while the word `w` executed (R171, R172). -/
def State.Reports (t : State) (w : Byte) (k : FaultKind) : Prop :=
  t.fault = true ∧ t.errCode = faultCode k ∧ t.errInfo = faultInfo k ∧ t.errCmd = w

/-- `t` is not halted, and has the error registers of `s`. -/
def State.ReportsNothing (s t : State) : Prop := t.fault = false ∧ s.SameErr t

@[simp] theorem reportsNothing_iff {s t : State} : s.ReportsNothing t ↔
    t.fault = false ∧ t.errCode = s.errCode ∧ t.errInfo = s.errInfo ∧ t.errCmd = s.errCmd := .rfl

theorem State.Reports.of_eq_raise {s t : State} {w : Byte} {k : FaultKind} (h : t = s.raise w k) : t.Reports w k :=
  h ▸ ⟨rfl, rfl, rfl, rfl⟩

section
variable {s : State} {w : Byte} {f : State → State}

/-- The test of `SEED_V` is the only one of a command whose writes `f` report nothing. -/
theorem needSeed_reports (hf : s.ReportsNothing (f s)) :
    if s.seedV = false then (s.needSeed w f).Reports w .noSeed else s.ReportsNothing (s.needSeed w f) := by
  split
  case isTrue hv => exact .of_eq_raise (needSeed_of_invalid hv w f)
  case isFalse hv => exact needSeed_of_valid (Bool.eq_true_of_not_eq_false hv) w f ▸ hf

/-- The same for the test of `GRID_V`. -/
theorem needGrid_reports (hf : s.ReportsNothing (f s)) :
    if s.gridV = false then (s.needGrid w f).Reports w .noGrid else s.ReportsNothing (s.needGrid w f) := by
  split
  case isTrue hv => exact .of_eq_raise (needGrid_of_invalid hv w f)
  case isFalse hv => exact needGrid_of_valid (Bool.eq_true_of_not_eq_false hv) w f ▸ hf

/-- The tests of the store and of the length, which ASM and QUERY make once both flags are known to be 1. -/
theorem assembleDoc_reports (hf : s.fault = false) (hs : s.seedV = true) (hg : s.gridV = true) :
    (∀ id, lowestAbsent s.frags id → (s.assembleDoc w).Reports w (.fragMissing id)) ∧
    (complete s.frags → if s.docLength > s.cfg.docMax then (s.assembleDoc w).Reports w .docOverflow
      else s.ReportsNothing (s.assembleDoc w)) := by
  refine ⟨fun id hid => ?_, fun hF => ?_⟩
  · exact .of_eq_raise (assembleDoc_of_lowestAbsent hs hg hid)
  · split
    case isTrue hlong => exact .of_eq_raise (assembleDoc_of_overflow hs hg hF hlong)
    case isFalse hroom =>
      rw [assembleDoc_of_ready hs hg (FragStore.firstMissing_eq_none.2 hF) (Nat.le_of_not_lt hroom)]
      simp [hf]

end

theorem State.Reports.fragMissing {t : State} {w : Byte} {id : Fin 10} (h : t.Reports w (.fragMissing id)) :
    t.fault = true ∧ t.errCode = 4 ∧ t.errInfo.toNat = id.val ∧ t.errCmd = w := by
  obtain ⟨hfault, hcode, hinfo, hcmd⟩ := h
  exact ⟨hfault, hcode, hinfo ▸ toNat_faultInfo_fragMissing id, hcmd⟩

theorem toNat_encode_lt (i : Instr) : (encode i).toNat < 8 := by cases i <;> decide

/-- Settles O14: the tests on the word leave each command the tests its own body makes, in the order of R176. -/
theorem faultTestsAreMadeInTheFixedOrder : Obligations.FaultTestsAreMadeInTheFixedOrder := by
  refine fun w s => ⟨_, takeCommand_eq_body w s, ?_⟩
  rcases s.fault.eq_false_or_eq_true with hf | hf
  · rw [if_pos hf, unlessHalted_of_halted hf]
  rw [if_neg (by simp [hf]), unlessHalted_of_running hf]
  rcases word_cases w with hw | ⟨i, rfl⟩
  · rw [if_pos hw, wordBody_illegal w hw]
    exact State.Reports.of_eq_raise (k := .illegalCmd) rfl
  rw [if_neg (Nat.not_le_of_lt (toNat_encode_lt i)), wordBody_encode]
  cases i <;>
    simp only [encode, BitVec.reduceEq, or_self, or_false, or_true, true_and, false_and, if_true, if_false]
  case nop => exact ⟨hf, rfl, rfl, rfl⟩
  case ldseed => simp [commandBody, hf]
  case decode => exact needSeed_reports (by simp [hf])
  case even => exact needSeed_reports (by simp [hf])
  case pass => exact needGrid_reports (by simp [hf])
  case crown => exact needGrid_reports (by simp [hf])
  case asm =>
    split
    case isTrue hs => exact State.Reports.of_eq_raise (assembleDoc_of_noSeed hs)
    case isFalse hs =>
      have hs : s.seedV = true := Bool.eq_true_of_not_eq_false hs
      split
      case isTrue hg => exact State.Reports.of_eq_raise (assembleDoc_of_noGrid hs hg)
      case isFalse hg =>
        obtain ⟨hmissing, hlength⟩ := assembleDoc_reports (w := encode .asm) hf hs (Bool.eq_true_of_not_eq_false hg)
        exact ⟨fun id hid => (hmissing id hid).fragMissing, hlength⟩
  case query =>
    obtain ⟨hmissing, hlength⟩ := assembleDoc_reports (w := encode .query) ((runTraits_fault s).trans hf)
      (runTraits_seedV s) (runTraits_gridV s)
    simp only [runTraits_docLength, runTraits_cfg, runTraits_frags, reportsNothing_iff, runTraits_errCode,
      runTraits_errInfo, runTraits_errCmd] at hmissing hlength
    exact ⟨fun id hid => (hmissing id hid).fragMissing, hlength⟩

end Sys2Proof.Machine
end

section
/-! PROOFS. Reset and the duties of the host (70_reset_and_hazards.md): what a step does with an action pending other
than a command, and that it stops only where a command reads an input the host may not change
(R190, R196 to R199, R204). -/

namespace Sys2Proof.Machine

theorem step_of_pending {s : State} {a : HostAction} {rest : List HostAction} (h : s.host = a :: rest) :
    step s = hostAct a { s with host := rest } := by
  rw [step, nextAction, h]

/-! ## Reset -/

theorem State.InputsMoved.fault {s t : State} (h : s.InputsMoved t) : t.fault = s.fault := by
  obtain ⟨v, F, a, host, rfl⟩ := h
  rfl

/-- Settles O12: a halted block executes no word, so besides a reset only the inputs can change. -/
theorem onlyResetClearsFault : Obligations.OnlyResetClearsFault := by
  intro s t hstep hs ht
  rcases step_effect_cases hstep with ⟨w, rest, ⟨hrunning, -⟩, -⟩ | ⟨hreset, -⟩ | ⟨-, hmoved⟩
  · exact absurd hs (Bool.eq_false_iff.1 hrunning)
  · exact hreset
  · exact absurd hs (Bool.eq_false_iff.1 (hmoved.fault.symm.trans ht))

@[simp] theorem State.hardReset_status (s : State) : s.hardReset.status = 0x00 := by simp [State.status]

@[simp] theorem State.hardReset_err (s : State) : s.hardReset.err = 0x00 := by simp [State.err]

theorem step_of_reset_pending {s : State} {rest : List HostAction}
    (h : s.host = .assertReset :: rest ∨ ∃ w, s.host = .disturbed w .rst :: rest) :
    step s = .next (State.hardReset { s with host := rest }) := by
  rcases h with h | ⟨w, h⟩
  · exact step_of_pending h
  · exact step_of_pending h

/-- Settles O11: both ways the step answers `hardReset`, whose fields are its frame. -/
theorem assertedResetReturnsFromEveryState : Obligations.AssertedResetReturnsFromEveryState := by
  refine fun s rest h => ⟨_, step_of_reset_pending h, ?_⟩
  simp

/-! ## The inputs between commands -/

theorem bytes?_set_same (F : FragStore) (id : Fin 10) (c : Option Bytes) :
    FragStore.bytes? (F.set id.val c id.isLt) id = c :=
  Vector.getElem_set_self id.isLt

theorem bytes?_set_of_ne (F : FragStore) {id j : Fin 10} (c : Option Bytes) (h : j ≠ id) :
    FragStore.bytes? (F.set id.val c id.isLt) j = F.bytes? j :=
  Vector.getElem_set_ne id.isLt j.isLt fun hij => h (Fin.ext hij.symm)

/-- Settles O7: the action's own record update; a store with one fragment set answers as before for every other. -/
theorem hostInputsChangeOnlyThemselves : Obligations.HostInputsChangeOnlyThemselves :=
  fun s _ => ⟨fun _ h => step_of_pending h, fun _ h => step_of_pending h, fun id c h =>
    ⟨s.frags.set id.val c id.isLt, bytes?_set_same s.frags id c, fun _ => bytes?_set_of_ne s.frags c,
      step_of_pending h⟩⟩

/-! ## The duties of the host -/

section
variable {w : Byte} {s : State}

theorem samplesSeedIn_iff : samplesSeedIn w s = true ↔ s.fault = false ∧ (w = 0x01 ∨ w = 0x07) := by
  simp [samplesSeedIn, encode]

theorem readsStore_iff : readsStore w s = true ↔ s.fault = false ∧ (w = 0x06 ∨ w = 0x07) := by
  simp [readsStore, encode]

theorem asksStore_iff : asksStore w s = true ↔
    s.fault = false ∧ (w = 0x07 ∨ (w = 0x06 ∧ s.seedV = true ∧ s.gridV = true)) := by
  simp [asksStore, encode, or_comm, and_assoc]

/-- A breach does no harm while the block is halted, nor under a word that does not read the input. -/
theorem not_running_and {P : Prop} (h : s.fault = true ∨ ¬ P) : ¬ (s.fault = false ∧ P) :=
  fun ⟨hf, hP⟩ => h.elim (Bool.eq_false_iff.1 hf) (· hP)

theorem takeDisturbed_seedMoves_of_samples (v : BitVec 256) (h : samplesSeedIn w s = true) :
    takeDisturbed w (.seedMoves v) s = .refused .seedInMoved := if_pos h

theorem takeDisturbed_seedMoves_of_not_samples (v : BitVec 256) (h : ¬ samplesSeedIn w s = true) :
    takeDisturbed w (.seedMoves v) s = .next { s.unlessHalted (wordBody w) with seedIn := v } := by
  rw [takeDisturbed, if_neg h, takeCommand_eq_body, thenChange]

theorem takeDisturbed_storeChanges_of_reads (F : FragStore) (h : readsStore w s = true) :
    takeDisturbed w (.storeChanges F) s = .refused .storeChanged := if_pos h

theorem takeDisturbed_storeChanges_of_not_reads (F : FragStore) (h : ¬ readsStore w s = true) :
    takeDisturbed w (.storeChanges F) s = .next { s.unlessHalted (wordBody w) with frags := F } := by
  rw [takeDisturbed, if_neg h, takeCommand_eq_body, thenChange]

theorem takeDisturbed_storeSilent_of_asks (h : asksStore w s = true) :
    takeDisturbed w .storeSilent s = .fault .storeSilent := if_pos h

theorem takeDisturbed_storeSilent_of_not_asks (h : ¬ asksStore w s = true) :
    takeDisturbed w .storeSilent s = takeCommand w s := if_neg h

end

/-- Settles O8: for each breach, the test of the word's reads decides whether the step stops. -/
theorem disturbedCommandsStopOnlyWhereTheyRead : Obligations.DisturbedCommandsStopOnlyWhereTheyRead := by
  refine fun s rest w => ⟨fun v hh => ?seedMoves, fun F hh => ?storeChanges, fun hh => ?storeSilent⟩ <;>
    rw [step_of_pending hh, hostAct]
  case seedMoves =>
    refine ⟨fun h => takeDisturbed_seedMoves_of_samples v (samplesSeedIn_iff.2 h), fun h =>
      ⟨_, takeCommand_eq_body w _, takeDisturbed_seedMoves_of_not_samples v fun hsamples => ?_⟩⟩
    exact not_running_and (h.imp_right not_or.2) (samplesSeedIn_iff.1 hsamples)
  case storeChanges =>
    refine ⟨fun h => takeDisturbed_storeChanges_of_reads F (readsStore_iff.2 h), fun h =>
      ⟨_, takeCommand_eq_body w _, takeDisturbed_storeChanges_of_not_reads F fun hreads => ?_⟩⟩
    exact not_running_and (h.imp_right not_or.2) (readsStore_iff.1 hreads)
  case storeSilent =>
    refine ⟨fun h => takeDisturbed_storeSilent_of_asks (asksStore_iff.2 h), fun h =>
      takeDisturbed_storeSilent_of_not_asks fun hasks => ?_⟩
    exact not_running_and (h.imp_right not_or.2) (asksStore_iff.1 hasks)

theorem hostAct_answers_next {a : HostAction} (h : ∀ w d, a = .disturbed w d → d = .rst) (s : State) :
    ∃ t, hostAct a s = .next t := by
  cases a with
  | command w => exact ⟨_, takeCommand_eq_body w s⟩
  | setSeedIn v => exact ⟨_, rfl⟩
  | setFragment id c => exact ⟨_, rfl⟩
  | setDocAddr d => exact ⟨_, rfl⟩
  | assertReset => exact ⟨_, rfl⟩
  | disturbed w d => exact h w d rfl ▸ ⟨_, rfl⟩

/-- Settles O9: only a breach under a command can stop a step. -/
theorem dutifulHostNeverStopsTheMachine : Obligations.DutifulHostNeverStopsTheMachine := by
  intro s hdutiful
  cases hh : s.host with
  | nil => exact ⟨s, step_of_idle hh⟩
  | cons a rest =>
    rw [step_of_pending hh]
    exact hostAct_answers_next (fun w d ha => hdutiful w d rest (ha ▸ hh)) _

end Sys2Proof.Machine
end
